-- ==== Sys2Proof/Word.lean ====
section
/-! DEFINITION. The words of SRFE: a byte (R5) and the 61-bit command word (R100). -/

namespace Sys2Proof

/-- A byte: 8 bits, unsigned (R5). -/
abbrev Byte := BitVec 8

/-- CMDWORD[60:0], the fields of the host command port taken together (R100). -/
abbrev CmdWord := BitVec 61

end Sys2Proof
end

