-- ==== Sys2Proof/Config.lean ====
section
/-! DEFINITION. What an implementation of SRFE fixes and no step changes: the number of boards and the
further catalog entries (R4, R42, R46, R71). No value of SRFE is left open by the spec (R139), so there is
no free value here. -/

namespace Sys2Proof

/-- One catalog entry (rsel, name, address[7:0], length) (R42). -/
structure CatEntry where
  rsel : Byte
  name : String
  addr : Byte
  len  : BitVec 2
  deriving DecidableEq, Repr

/-- The OPEN parameters NBOARDS and CATALOG_EXT (R4, R71). -/
structure Config where
  /-- NBOARDS, 1 to 86 (R4). -/
  nboards : Nat
  /-- CATALOG_EXT, the entries beyond the five the source gives (R71). -/
  catalogExt : List CatEntry
  deriving DecidableEq, Repr

/-- The spec's defaults: NBOARDS = 3 and an empty CATALOG_EXT (R4, R71). -/
def Config.default : Config := { nboards := 3, catalogExt := [] }

end Sys2Proof
end

