-- ==== Sys2Proof/Syntax.lean ====
section
/-! DEFINITION. The commands, frames and replies of SRFE: one constructor of `Instr` for each row of
spec/opcode_table.json (R110). -/

namespace Sys2Proof

/-- The value of CMD_OP[2:0]: the eight opcodes (R101). -/
inductive Op where
  | wrreg | rdreg | set | get | flush | reserved5 | reserved6 | reserved7
  deriving DecidableEq, Repr

/-- The fields of a command word besides `op` (R100). A command ignores the fields it does not use, but
`Accept` still latches some of them (R130), so every command carries them all. -/
structure CmdFields where
  board : Byte
  addr  : Byte
  len   : BitVec 2
  rsel  : Byte
  wdata : BitVec 32
  deriving DecidableEq, Repr

/-- The 18 rows of the opcode table: commands on the host command port, frames going out on port TX,
replies coming in on port RX or SIMRX (R90, R100, R110). Frame and reply fields stand in wire order. -/
inductive Instr where
  /-- WRREG board, addr, len, value (R140). -/
  | wrreg (c : CmdFields)
  /-- RDREG board, addr, len (R160). -/
  | rdreg (c : CmdFields)
  /-- SET board, name, value (R182). -/
  | set (c : CmdFields)
  /-- GET board, name (R184). -/
  | get (c : CmdFields)
  /-- FLUSH (R195). -/
  | flush (c : CmdFields)
  /-- op = 5, reserved (R199). -/
  | reservedOp5 (c : CmdFields)
  /-- op = 6, reserved (R199). -/
  | reservedOp6 (c : CmdFields)
  /-- op = 7, reserved (R199). -/
  | reservedOp7 (c : CmdFields)
  /-- Write frame for len 1 (R93). -/
  | wrframe1 (header addr d0 cks : Byte)
  /-- Write frame for len 2 (R93). -/
  | wrframe2 (header addr d0 d1 cks : Byte)
  /-- Write frame for len 3 (R93). -/
  | wrframe3 (header addr d0 d1 d2 cks : Byte)
  /-- Read-request frame for len 1 (R94). -/
  | rdreq1 (header addr cks : Byte)
  /-- Read-request frame for len 2 (R94). -/
  | rdreq2 (header addr cks : Byte)
  /-- Read-request frame for len 3 (R94). -/
  | rdreq3 (header addr cks : Byte)
  /-- Acknowledgment reply, `41 41` (R95). -/
  | ackreply
  /-- Read reply for len 1 (R96). -/
  | rdreply1 (first d0 last : Byte)
  /-- Read reply for len 2 (R96). -/
  | rdreply2 (first d0 d1 last : Byte)
  /-- Read reply for len 3 (R96). -/
  | rdreply3 (first d0 d1 d2 last : Byte)
  deriving DecidableEq, Repr

/-- What stands at one of SRFE's ports: a command word on the host command port, the bytes of a frame on
port TX, the bytes of a reply on the response port. Content alone does not tell a reply from a frame
(R97, R110), so a word always comes with its port. -/
inductive PortWord where
  | cmd (w : CmdWord)
  | frame (bytes : List Byte)
  | reply (bytes : List Byte)
  deriving DecidableEq, Repr

end Sys2Proof
end

