-- ==== Sys2Proof/Machine/Operands.lean ====
section
/-! DEFINITION. The datapath's pure functions (R120 to R125, R127's frames), the source's constants (R4),
the opcodes (R101) and the register address dispatcher (R70, R180, R181). -/

namespace Sys2Proof.Machine

/-! ### Constants (R4) -/

/-- HDR_BASE. -/
def hdrBase : Byte := 0xAA

/-- RD_MARK. -/
def rdMark : Byte := 0x82

/-- ACK_BYTE. -/
def ackByte : Byte := 0x41

/-- ACK_LEN, the reply bytes read after a write frame. -/
def ackLen : Nat := 2

/-- RD_EXTRA, the reply bytes of a read beyond its data bytes. -/
def rdExtra : Nat := 2

/-- BOARD_MAX_WIRE + 1: the most boards whose header byte fits 8 bits (R4). -/
def maxBoards : Nat := 86

/-! ### Opcodes and kinds -/

/-- The opcode numbers (R101). -/
def opCode : Op → BitVec 3
  | .wrreg => 0
  | .rdreg => 1
  | .set => 2
  | .get => 3
  | .flush => 4
  | .reserved5 => 5
  | .reserved6 => 6
  | .reserved7 => 7

/-- IsWriteKind (R121). -/
def isWriteKind : Op → Bool
  | .wrreg | .set => true
  | _ => false

/-- IsReadKind (R121). -/
def isReadKind : Op → Bool
  | .rdreg | .get => true
  | _ => false

/-- SET and GET take (address, length) from the catalog (R101: bit 1 of op). -/
def usesCatalog : Op → Bool
  | .set | .get => true
  | _ => false

/-- op in 5, 6, 7 (R199). -/
def isReservedOp : Op → Bool
  | .reserved5 | .reserved6 | .reserved7 => true
  | _ => false

/-! ### Frame bytes -/

/-- `HeaderByte(board)` (R120). The rule gives it for `board <= 85` only, where the sum does not carry. -/
def headerByte (board : Byte) : Byte := hdrBase + board

/-- `LengthByte(len) = 1 + len` (R121). -/
def lengthByte (len : BitVec 2) : Byte := 1 + len.setWidth 8

/-- `zext_8(CMD_LEN)`, the length field of a read request (R127). -/
def lenField (len : BitVec 2) : Byte := len.setWidth 8

/-- FrameLen (R121): `4 + len` for write kind, else 5. -/
def frameLen (op : Op) (len : BitVec 2) : Nat :=
  if isWriteKind op then 4 + len.toNat else 5

/-- RxN (R121): 2 for write kind, else `2 + len`. -/
def rxN (op : Op) (len : BitVec 2) : Nat :=
  if isWriteKind op then ackLen else rdExtra + len.toNat

/-- `Pack(value, len)` by repeated `value mod 256`, `value >>= 8` (R98, R122). -/
def pack (value : BitVec 32) : Nat → List Byte
  | 0 => []
  | n + 1 => value.setWidth 8 :: pack (value >>> 8) n

/-- The 8-bit sum of a byte sequence, carries out of bit 7 dropped (R123). -/
def byteSum : List Byte → Byte
  | [] => 0
  | b :: bs => b + byteSum bs

/-- `Checksum(g)`: the sum of all bytes but the first, modulo 256 (R123; 90 C1). -/
def checksum (g : List Byte) : Byte := byteSum (g.drop 1)

/-- The little-endian value of data bytes, `sum of b[i] * 256^i`, in 24 bits (R64, R124). -/
def leValue : List Byte → BitVec 24
  | [] => 0
  | b :: bs => b.setWidth 24 + (leValue bs <<< 8)

/-- `Unpack(r, len)`: the value of reply bytes 1 to len (R124; 90 C7). -/
def unpack (r : List Byte) (len : Nat) : BitVec 24 := leValue ((r.drop 1).take len)

/-- `AckMatch(r)` (R125). -/
def ackMatch (r : List Byte) : Bool := r == [ackByte, ackByte]

/-- A frame body with its checksum appended (R91, R123). -/
def withChecksum (g : List Byte) : List Byte := g ++ [checksum g]

/-- `WriteFrame(board, addr, len, value)` (R93). -/
def writeFrame (board addr : Byte) (len : BitVec 2) (value : BitVec 32) : List Byte :=
  withChecksum (headerByte board :: lengthByte len :: addr :: pack value len.toNat)

/-- `ReadReqFrame(board, addr, len)` (R94). -/
def readReqFrame (board addr : Byte) (len : BitVec 2) : List Byte :=
  withChecksum [headerByte board, rdMark, addr, lenField len]

/-! ### The catalog -/

/-- The five entries the source gives, with the spec's rsel (R70). -/
def fixedCatalog : List CatEntry :=
  [ { rsel := 0, name := "setPosition", addr := 0x2F, len := 3 },
    { rsel := 1, name := "mPosition",   addr := 0x33, len := 3 },
    { rsel := 2, name := "pwrLimit",    addr := 0x2C, len := 1 },
    { rsel := 3, name := "mVelocity",   addr := 0x39, len := 2 },
    { rsel := 4, name := "Version",     addr := 0xB2, len := 1 } ]

/-- The whole catalog ROM: the fixed entries, then CATALOG_EXT (R42, R70, R71). -/
def catalog (cfg : Config) : List CatEntry := fixedCatalog ++ cfg.catalogExt

/-- `CatLookup(rsel)` (R180). -/
def catLookup (cfg : Config) (rsel : Byte) : Option (Byte × BitVec 2) :=
  ((catalog cfg).find? fun e => e.rsel == rsel).map fun e => (e.addr, e.len)

/-- `NameToRsel(name)`; names are compared exactly (R181). -/
def nameToRsel (cfg : Config) (name : String) : Option Byte :=
  ((catalog cfg).find? fun e => e.name == name).map fun e => e.rsel

end Sys2Proof.Machine
end

