-- ==== Sys2Proof/Decode.lean ====
section
/-! DEFINITION. The decoder of what stands at SRFE's ports (R93 to R96, R100, R101), total and rejecting
by name; the encoder after it; the numbering of the opcode table (R110); and the spec's reference parser
of outgoing frames (R108). -/

namespace Sys2Proof

open Sys2Proof.Machine

/-! ### Decoding -/

/-- Why bytes at a port are no row of the opcode table. -/
inductive DecodeError where
  /-- Bytes on port TX that are neither a write frame nor a read request in length and fixed bytes. -/
  | noFrameRow
  /-- Reply bytes of no row: not 2 to 5 bytes long, or two bytes other than `41 41`. -/
  | noReplyRow
  deriving DecidableEq, Repr

/-- The opcode of CMDWORD[60:58] (R101). -/
def opOfCode (code : BitVec 3) : Op :=
  if code = 0 then .wrreg
  else if code = 1 then .rdreg
  else if code = 2 then .set
  else if code = 3 then .get
  else if code = 4 then .flush
  else if code = 5 then .reserved5
  else if code = 6 then .reserved6
  else .reserved7

/-- CMDWORD[57:0] taken apart (R100). -/
def cmdFieldsOf (w : CmdWord) : CmdFields :=
  { board := w.extractLsb' 50 8
    addr  := w.extractLsb' 42 8
    len   := w.extractLsb' 40 2
    rsel  := w.extractLsb' 32 8
    wdata := w.extractLsb' 0 32 }

/-- The command of an opcode and its fields. -/
def cmdInstr (op : Op) (c : CmdFields) : Instr :=
  match op with
  | .wrreg => .wrreg c
  | .rdreg => .rdreg c
  | .set => .set c
  | .get => .get c
  | .flush => .flush c
  | .reserved5 => .reservedOp5 c
  | .reserved6 => .reservedOp6 c
  | .reserved7 => .reservedOp7 c

/-- Every 61-bit word is a command (R100, R101). -/
def decodeCmd (w : CmdWord) : Instr :=
  cmdInstr (opOfCode (w.extractLsb' 58 3)) (cmdFieldsOf w)

/-- Index 1 tells the frame type and the length of a write frame (R91, R97). -/
def decodeFrame (bytes : List Byte) : Except DecodeError Instr :=
  match bytes with
  | [h, m, a, x, k] =>
    if m = 0x02 then .ok (.wrframe1 h a x k)
    else if m = 0x82 ∧ x = 0x01 then .ok (.rdreq1 h a k)
    else if m = 0x82 ∧ x = 0x02 then .ok (.rdreq2 h a k)
    else if m = 0x82 ∧ x = 0x03 then .ok (.rdreq3 h a k)
    else .error .noFrameRow
  | [h, m, a, d0, d1, k] => if m = 0x03 then .ok (.wrframe2 h a d0 d1 k) else .error .noFrameRow
  | [h, m, a, d0, d1, d2, k] => if m = 0x04 then .ok (.wrframe3 h a d0 d1 d2 k) else .error .noFrameRow
  | _ => .error .noFrameRow

/-- A reply is told by its length alone, but for the acknowledgment's two fixed bytes (R95 to R97). -/
def decodeReply (bytes : List Byte) : Except DecodeError Instr :=
  match bytes with
  | [b0, b1] => if b0 = ackByte ∧ b1 = ackByte then .ok .ackreply else .error .noReplyRow
  | [f, d0, l] => .ok (.rdreply1 f d0 l)
  | [f, d0, d1, l] => .ok (.rdreply2 f d0 d1 l)
  | [f, d0, d1, d2, l] => .ok (.rdreply3 f d0 d1 d2 l)
  | _ => .error .noReplyRow

/-- The decoder: total on whatever stands at a port. -/
def decode : PortWord → Except DecodeError Instr
  | .cmd w => .ok (decodeCmd w)
  | .frame bytes => decodeFrame bytes
  | .reply bytes => decodeReply bytes

/-! ### Encoding -/

/-- `CMDWORD = {op, board, addr, len, rsel, wdata}`, each field at its lowest bit (R100). -/
def encodeCmd (op : Op) (c : CmdFields) : CmdWord :=
  (opCode op).setWidth 61 <<< 58 ||| c.board.setWidth 61 <<< 50 ||| c.addr.setWidth 61 <<< 42 |||
    c.len.setWidth 61 <<< 40 ||| c.rsel.setWidth 61 <<< 32 ||| c.wdata.setWidth 61

/-- The word of a term of `Instr`, at the port it stands at (R93 to R96, R100). -/
def encode : Instr → PortWord
  | .wrreg c => .cmd (encodeCmd .wrreg c)
  | .rdreg c => .cmd (encodeCmd .rdreg c)
  | .set c => .cmd (encodeCmd .set c)
  | .get c => .cmd (encodeCmd .get c)
  | .flush c => .cmd (encodeCmd .flush c)
  | .reservedOp5 c => .cmd (encodeCmd .reserved5 c)
  | .reservedOp6 c => .cmd (encodeCmd .reserved6 c)
  | .reservedOp7 c => .cmd (encodeCmd .reserved7 c)
  | .wrframe1 h a d0 k => .frame [h, 0x02, a, d0, k]
  | .wrframe2 h a d0 d1 k => .frame [h, 0x03, a, d0, d1, k]
  | .wrframe3 h a d0 d1 d2 k => .frame [h, 0x04, a, d0, d1, d2, k]
  | .rdreq1 h a k => .frame [h, 0x82, a, 0x01, k]
  | .rdreq2 h a k => .frame [h, 0x82, a, 0x02, k]
  | .rdreq3 h a k => .frame [h, 0x82, a, 0x03, k]
  | .ackreply => .reply [ackByte, ackByte]
  | .rdreply1 f d0 l => .reply [f, d0, l]
  | .rdreply2 f d0 d1 l => .reply [f, d0, d1, l]
  | .rdreply3 f d0 d1 d2 l => .reply [f, d0, d1, d2, l]

/-! ### The numbering of the opcode table -/

/-- The `n` bytes of a number, index 0 the most significant: the table writes a frame or reply with index
0 leftmost (R110). -/
def bytesOfNat : Nat → Nat → List Byte
  | 0, _ => []
  | n + 1, w => BitVec.ofNat 8 (w >>> (8 * n)) :: bytesOfNat n w

/-- The word of `nbits` bits numbered as the table numbers them, at its port: a command has 61 bits
(written in 64), a frame 40, 48 or 56, a reply 16, 24, 32 or 40. A 40-bit word is a frame where it fits
a frame's fixed bytes, else a read reply, whose row fixes no bit (R110; log 8). -/
def portWordOf (nbits w : Nat) : Option PortWord :=
  if nbits = 61 ∨ nbits = 64 then
    if w < 2 ^ 61 then some (.cmd (BitVec.ofNat 61 w)) else none
  else if 2 ^ nbits ≤ w then none
  else if nbits = 16 ∨ nbits = 24 ∨ nbits = 32 then some (.reply (bytesOfNat (nbits / 8) w))
  else if nbits = 40 then
    match decodeFrame (bytesOfNat 5 w) with
    | .ok _ => some (.frame (bytesOfNat 5 w))
    | .error _ => some (.reply (bytesOfNat 5 w))
  else if nbits = 48 ∨ nbits = 56 then some (.frame (bytesOfNat (nbits / 8) w))
  else none

/-- The instruction the decoder reads from an opcode-table word. -/
def decodeTableWord (nbits w : Nat) : Option Instr :=
  match portWordOf nbits w with
  | none => none
  | some p => (decode p).toOption

/-! ### The reference parser -/

/-- What `DecodeRequest` answers for a valid frame (R108). -/
inductive Request where
  | write (board addr : Byte) (len : BitVec 2) (value : BitVec 24)
  | readReq (board addr : Byte) (len : BitVec 2)
  deriving DecidableEq, Repr

/-- `DecodeRequest(f)`, none where the rule says `invalid` (R108). SRFE does not contain it. -/
def decodeRequest (nboards : Nat) (f : List Byte) : Option Request :=
  match f with
  | h :: m :: a :: x :: k :: rest =>
    if h.toNat < hdrBase.toNat ∨ nboards ≤ h.toNat - hdrBase.toNat then none
    else if m = rdMark then
      if rest = [] ∧ 1 ≤ x.toNat ∧ x.toNat ≤ 3 ∧ k = m + a + x then
        some (.readReq (h - hdrBase) a (x.setWidth 2))
      else none
    else if 2 ≤ m.toNat ∧ m.toNat ≤ 4 then
      let len := m.toNat - 1
      if f.length = 4 + len ∧ f.getLast? = some (checksum (f.take (3 + len))) then
        some (.write (h - hdrBase) a (BitVec.ofNat 2 len) (leValue ((f.drop 3).take len)))
      else none
    else none
  | _ => none

end Sys2Proof
end

