-- ==== Sys2Proof/Machine/State.lean ====
section
/-! DEFINITION. The state of SRFE (R20, every element of its table), its configuration (R42, R46), the
pins, ports and transport outside it (R33 to R41, R75), and the state after reset (R44). -/

namespace Sys2Proof.Machine

/-- PHASE (R26). -/
inductive Phase where
  | idle | tx | rx | drain
  deriving DecidableEq, Repr

/-- STATUS (R28, R230). The code 7 is never produced and has no value here (93 U43). -/
inductive Status where
  | ok | errUnknownReg | errLink | errShortRead | errBoard | errLen | errOp
  deriving DecidableEq, Repr

/-- The direction on the trace port: `T` a frame byte, `R` a response byte (R41). -/
inductive TraceDir where
  | t | r
  deriving DecidableEq, Repr

/-- One pulse of the trace port (R41). -/
structure TraceEvent where
  dir  : TraceDir
  data : Byte
  deriving DecidableEq, Repr

/-- What the world outside SRFE does next (R8, R9, R75, R76). DESIGN CHOICE (log 1): the choices the spec
leaves to the environment stand in State as a list of these. -/
inductive EnvEvent where
  /-- The environment does nothing: SRFE takes its own step, if it has one. -/
  | turn
  /-- The host presents a command and holds it until it is taken (R35, R275). -/
  | command (w : CmdWord)
  /-- The host takes its command back before it was taken. -/
  | withdraw
  /-- `Arrive(b)`: a byte from the boards joins the pending input (R75). -/
  | arrive (b : Byte)
  /-- A canned byte joins the queue behind port SIMRX (R40, R75). -/
  | canned (b : Byte)
  /-- `rx_timeout` (R38). -/
  | rxTimeout
  /-- `sim_timeout` (R40). -/
  | simTimeout
  /-- The host drives the pin `sim_mode` (R33). -/
  | simMode (v : Bool)
  /-- The pin `link_ok` (R34). -/
  | linkOk (v : Bool)
  /-- The transport raises or lowers `tx_ready` (R37). -/
  | txReady (v : Bool)
  /-- The host applies `rst` (R39, R260). -/
  | reset
  /-- The transport offers to take these bytes as one frame from port TX: the source's `write(bytes)` (R7, R74). -/
  | frame (bytes : List Byte)
  /-- These bytes come in as one reply: the source's `read` of the reply (R38, R74). -/
  | reply (bytes : List Byte)
  deriving DecidableEq, Repr

/-- The state of SRFE: exactly the elements of R20's table. -/
structure Engine where
  /-- CMD_OP[2:0] (R21). -/
  cmdOp : Op
  /-- CMD_BOARD[7:0] (R21). -/
  cmdBoard : Byte
  /-- CMD_ADDR[7:0] (R21). -/
  cmdAddr : Byte
  /-- CMD_LEN[1:0] (R21). -/
  cmdLen : BitVec 2
  /-- CMD_SIM (R21). -/
  cmdSim : Bool
  /-- SHR, the pack shift register (R22). -/
  shr : BitVec 32
  /-- CKS, the checksum accumulator (R23). -/
  cks : Byte
  /-- RACC, the unpack accumulator (R24). -/
  racc : BitVec 24
  /-- TXI[2:0], the index of the next frame byte (R25). -/
  txi : BitVec 3
  /-- RXI[2:0], the response bytes taken so far (R25). -/
  rxi : BitVec 3
  /-- ACKOK (R25). -/
  ackok : Bool
  /-- PHASE (R26). -/
  phase : Phase
  /-- STATUS[2:0] (R28). -/
  status : Status
  /-- ACK (R29). -/
  ack : Bool
  /-- RDATA[23:0] (R30). -/
  rdata : BitVec 24
  /-- RVALID (R31). -/
  rvalid : Bool
  deriving DecidableEq, Repr

/-- What stands outside SRFE and no reset of SRFE touches (R43, R46, R75, R262). -/
structure Env where
  /-- Pin `sim_mode` (R33). -/
  simMode : Bool
  /-- Pin `link_ok` (R34). -/
  linkOk : Bool
  /-- The host command port: `some w` while `cmd_valid = 1` with the fields of `w` (R35, R100). -/
  cmdPort : Option CmdWord
  /-- `tx_ready` of port TX (R37). -/
  txReady : Bool
  /-- `wire_out`, every byte handed to port TX, oldest first (R75). -/
  wireOut : List Byte
  /-- `rxq`, the pending input, oldest first (R43, R75). -/
  rxq : List Byte
  /-- `simq`, the canned data behind port SIMRX (R75). -/
  simq : List Byte
  /-- The trace port's history, oldest first (R41). -/
  trace : List TraceEvent
  /-- How many times `done` has pulsed (R36). -/
  doneCount : Nat
  /-- How many times `rx_flush` has pulsed (R38). -/
  flushCount : Nat
  /-- The model's own field: what the environment does next (log 1). -/
  script : List EnvEvent
  deriving DecidableEq, Repr

/-- The whole machine: its configuration, the engine, and what stands outside it. -/
structure State where
  cfg : Config
  eng : Engine
  env : Env
  deriving DecidableEq, Repr

/-- The only fault. A step that stops here changes nothing more. -/
inductive Fault where
  /-- Raised by `txStep` in phase TX when R127's tables list no frame byte for TXI and CMD_OP. Safe: the
  spec gives no byte there, and no state that meets R45 reaches it. -/
  | noFrameByte
  deriving DecidableEq, Repr

/-- Refusals. -/
inductive Refusal where
  /-- An arm of `exec` with no meaning. No arm answers it: every row of the table is modelled. Safe. -/
  | notModelled (mnemonic : String)
  deriving DecidableEq, Repr

/-- What a step answers. -/
abbrev Result := Host.Outcome State Fault Refusal

/-- The engine after the `Reset` step (R44). -/
def Engine.reset : Engine :=
  { cmdOp := .wrreg, cmdBoard := 0, cmdAddr := 0, cmdLen := 0, cmdSim := false
    shr := 0, cks := 0, racc := 0, txi := 0, rxi := 0, ackok := false, phase := .idle
    status := .ok, ack := false, rdata := 0, rvalid := false }

/-- DESIGN CHOICE (log 10): the spec resets nothing outside SRFE (R44, R262, R263); these are the launch
conventions of 95_test_vectors.md (`sim_mode = 0`, `link_ok = 1`, `rxq = []`), with nothing presented,
sent, traced or scheduled, and a transport that accepts bytes. -/
def Env.launch : Env :=
  { simMode := false, linkOk := true, cmdPort := none, txReady := true
    wireOut := [], rxq := [], simq := [], trace := [], doneCount := 0, flushCount := 0, script := [] }

/-- The machine right after reset (R44, R260), with the default configuration (R4). -/
def State.reset : State := { cfg := Config.default, eng := Engine.reset, env := Env.launch }

end Sys2Proof.Machine
end

