-- ==== Sys2Proof/Machine/Flags.lean ====
section
/-! DEFINITION. The flags of SRFE (R27: ACKOK, ACK, RVALID, BUSY; no arithmetic flag exists), the outputs
derived from the state (R32, R37, R38, R40), and the codes by which PHASE, STATUS and CMD_OP are numbered. -/

namespace Sys2Proof.Machine

/-- The 2-bit codes of PHASE (R26). -/
def Phase.code : Phase → BitVec 2
  | .idle => 0
  | .tx => 1
  | .rx => 2
  | .drain => 3

/-- The 3-bit codes of STATUS (R28, R230). -/
def Status.code : Status → BitVec 3
  | .ok => 0
  | .errUnknownReg => 1
  | .errLink => 2
  | .errShortRead => 3
  | .errBoard => 4
  | .errLen => 5
  | .errOp => 6

/-- Output BUSY (R32). -/
def busy (s : State) : Bool := s.eng.phase != .idle

/-- Output `cmd_ready` (R32). -/
def cmdReady (s : State) : Bool := !busy s

/-- Output `tx_valid`: SRFE offers a byte on port TX (R37). -/
def txValid (s : State) : Bool := s.eng.phase == .tx && !s.eng.cmdSim

/-- Output `rx_ready` (R38). -/
def rxReady (s : State) : Bool := s.eng.phase == .rx && !s.eng.cmdSim

/-- Output `sim_ready` (R40). -/
def simReady (s : State) : Bool := s.eng.phase == .rx && s.eng.cmdSim

/-- ACKOK after one more response byte of a write (R25, R133). -/
def ackokAfter (ackok : Bool) (b : Byte) : Bool := ackok && b == ackByte

end Sys2Proof.Machine
end

