-- ==== Sys2Proof/Machine/Ops.lean ====
section
/-! DEFINITION. The input and output primitives of R7, the end of a command (R137) with the failing end
`raise` (R236, the analogue of taking an exception), reset (R260), and what the environment's queues do
(R75). There is no return from an exception: the next `Accept` is the resumption (R239). -/

namespace Sys2Proof.Machine

/-! ### Output primitives (R7) -/

/-- `Trace(dir, b)` (R41). -/
def traceByte (dir : TraceDir) (b : Byte) (s : State) : State :=
  { s with env := { s.env with trace := s.env.trace ++ [{ dir := dir, data := b }] } }

/-- `TxByte(b)` (R37, R75). -/
def txByte (b : Byte) (s : State) : State :=
  { s with env := { s.env with wireOut := s.env.wireOut ++ [b] } }

/-- `RxFlush()`: the pending input of that moment is discarded, nothing else (R38, R77). -/
def rxFlush (s : State) : State :=
  { s with env := { s.env with rxq := [], flushCount := s.env.flushCount + 1 } }

/-! ### The end of a command -/

/-- `Complete(st, ack, rdata, rvalid)` (R137): all four result registers, PHASE, and a `done` pulse. -/
def complete (st : Status) (ack : Bool) (rdata : BitVec 24) (rvalid : Bool) (s : State) : State :=
  { s with
    eng := { s.eng with status := st, ack := ack, rdata := rdata, rvalid := rvalid, phase := .idle }
    env := { s.env with doneCount := s.env.doneCount + 1 } }

/-- `raise E` is `Complete(E, 0, 0, 0)` (R7, R236). -/
def raise (st : Status) (s : State) : State := complete st false 0 false s

/-! ### Reset -/

/-- The `Reset` step: every engine element takes its value of R44; no output pulses; nothing outside SRFE
changes (R260 to R262). -/
def resetStep (s : State) : State := { s with eng := Engine.reset }

/-! ### The response source (R7, R38, R40, R75) -/

/-- Bytes join the pending input (R75, `Arrive`). -/
def arriveRx (bytes : List Byte) (s : State) : State :=
  { s with env := { s.env with rxq := s.env.rxq ++ bytes } }

/-- Canned bytes join the queue behind port SIMRX (R75). -/
def arriveSim (bytes : List Byte) (s : State) : State :=
  { s with env := { s.env with simq := s.env.simq ++ bytes } }

/-- `RxByte()`: in phase RX the oldest byte of the response source, port SIMRX for a simulated command and
port RX for a real one; outside phase RX no byte is taken (R38, R40, R75, R136). -/
def takeByte (s : State) : Option (Byte × State) :=
  if s.eng.phase = .rx then
    if s.eng.cmdSim then
      match s.env.simq with
      | [] => none
      | b :: rest => some (b, { s with env := { s.env with simq := rest } })
    else
      match s.env.rxq with
      | [] => none
      | b :: rest => some (b, { s with env := { s.env with rxq := rest } })
  else none

/-! ### The environment's own moves -/

/-- The host drives the command port (R35). -/
def setCmdPort (w : Option CmdWord) (s : State) : State :=
  { s with env := { s.env with cmdPort := w } }

/-- The host drives `sim_mode` (R33). -/
def setSimMode (v : Bool) (s : State) : State := { s with env := { s.env with simMode := v } }

/-- The pin `link_ok` (R34). -/
def setLinkOk (v : Bool) (s : State) : State := { s with env := { s.env with linkOk := v } }

/-- `tx_ready` (R37). -/
def setTxReady (v : Bool) (s : State) : State := { s with env := { s.env with txReady := v } }

/-- What the environment does next (log 1). -/
def setScript (es : List EnvEvent) (s : State) : State := { s with env := { s.env with script := es } }

end Sys2Proof.Machine
end

