-- ==== Sys2Proof/Machine/Sequencer.lean ====
section
/-! DEFINITION. The steps of the sequencer: Accept (R130), TxStep (R127, R131), RxStep (R133),
RxTimeoutStep (R134), DrainStep (R135); and how a frame on port TX (R7, R37) and a reply on the response port
(R38, R40, R75) start, each with one of these steps (R8). -/

namespace Sys2Proof.Machine

/-! ### Accept (R130) -/

/-- Checks 1 to 5 of `Accept`, in order: the status of the first that fails, or (address, length)
(R130, R237). -/
def acceptCheck (op : Op) (c : CmdFields) (s : State) : Except Status (Byte × BitVec 2) :=
  if isReservedOp op then .error .errOp
  else
    match (if usesCatalog op then catLookup s.cfg c.rsel else some (c.addr, c.len)) with
    | none => .error .errUnknownReg
    | some (a, l) =>
      if op != .flush && l == 0 then .error .errLen
      else if op != .flush && decide (s.cfg.nboards ≤ c.board.toNat) then .error .errBoard
      else if !s.env.simMode && !s.env.linkOk then .error .errLink
      else .ok (a, l)

/-- CMD_OP, CMD_BOARD and CMD_SIM are written before the checks (R130; log 13). -/
def latchCommand (op : Op) (c : CmdFields) (s : State) : State :=
  { s with eng := { s.eng with cmdOp := op, cmdBoard := c.board, cmdSim := s.env.simMode } }

/-- The `start` part of `Accept` (R130). -/
def startCommand (op : Op) (a : Byte) (l : BitVec 2) (wdata : BitVec 32) (s : State) : State :=
  { s with eng := { s.eng with
      cmdAddr := a, cmdLen := l, shr := wdata, cks := 0, racc := 0, txi := 0, rxi := 0, ackok := true
      phase := if op = .flush then .drain else .tx } }

/-- `Accept(c)` (R130). -/
def accept (op : Op) (c : CmdFields) (s : State) : State :=
  match acceptCheck op c s with
  | .error st => raise st (latchCommand op c s)
  | .ok (a, l) => startCommand op a l c.wdata (latchCommand op c s)

/-- A command at the command port: taken in phase IDLE, else not taken and without effect
(R32, R129, R136). -/
def hostCommand (op : Op) (c : CmdFields) (s : State) : Result :=
  .next (if s.eng.phase = .idle then accept op c s else s)

/-! ### TxStep (R131) -/

/-- `TxByteAt(i)`: the two tables of R127, none where they list no byte. -/
def txByteAt (e : Engine) (i : Nat) : Option Byte :=
  if isWriteKind e.cmdOp then
    if i = 0 then some (headerByte e.cmdBoard)
    else if i = 1 then some (lengthByte e.cmdLen)
    else if i = 2 then some e.cmdAddr
    else if i ≤ 2 + e.cmdLen.toNat then some (e.shr.setWidth 8)
    else if i = 3 + e.cmdLen.toNat then some e.cks
    else none
  else if isReadKind e.cmdOp then
    if i = 0 then some (headerByte e.cmdBoard)
    else if i = 1 then some rdMark
    else if i = 2 then some e.cmdAddr
    else if i = 3 then some (lenField e.cmdLen)
    else if i = 4 then some e.cks
    else none
  else none

/-- CKS after frame byte `b`: every byte but the header and the checksum is added (R23, R131). -/
def cksAfter (e : Engine) (b : Byte) : Byte :=
  if 1 ≤ e.txi.toNat ∧ e.txi.toNat < frameLen e.cmdOp e.cmdLen - 1 then e.cks + b else e.cks

/-- SHR after a frame byte: shifted after each data byte of a write (R22, R131). -/
def shrAfter (e : Engine) : BitVec 32 :=
  if isWriteKind e.cmdOp ∧ 3 ≤ e.txi.toNat ∧ e.txi.toNat ≤ 2 + e.cmdLen.toNat then e.shr >>> 8 else e.shr

/-- Where frame byte `b` goes: the trace always, port TX in real mode only (R41, R131). -/
def emitByte (b : Byte) (s : State) : State :=
  if s.eng.cmdSim then traceByte .t b s else txByte b (traceByte .t b s)

/-- The sequencing part of `TxStep`: TXI, or the end of the frame (R131). -/
def txAdvance (s : State) : State :=
  if s.eng.txi.toNat < frameLen s.eng.cmdOp s.eng.cmdLen - 1 then
    { s with eng := { s.eng with txi := s.eng.txi + 1 } }
  else if isWriteKind s.eng.cmdOp && s.eng.cmdSim then complete .ok true 0 false s
  else { s with eng := { s.eng with phase := .rx } }

/-- `TxStep` (R131). Where R127 lists no byte the step faults. -/
def txStep (s : State) : Result :=
  match txByteAt s.eng s.eng.txi.toNat with
  | none => .fault .noFrameByte
  | some b =>
    .next (txAdvance (emitByte b
      { s with eng := { s.eng with cks := cksAfter s.eng b, shr := shrAfter s.eng } }))

/-! ### RxStep (R133), RxTimeoutStep (R134), DrainStep (R135) -/

/-- RACC after response byte `b`: counts 1 to CMD_LEN are data, the first and the last are skipped
(R24, R133). -/
def raccAfter (e : Engine) (b : Byte) : BitVec 24 :=
  if 1 ≤ e.rxi.toNat ∧ e.rxi.toNat ≤ e.cmdLen.toNat then
    e.racc + (b.setWidth 24 <<< (8 * (e.rxi.toNat - 1)))
  else e.racc

/-- `RxStep(b)` of a write: both bytes are taken whatever the first is (R125, R133). -/
def rxStepWrite (b : Byte) (s : State) : State :=
  { s with eng := { s.eng with
      ackok := ackokAfter s.eng.ackok b
      rxi := s.eng.rxi + 1
      phase := if s.eng.rxi.toNat + 1 = ackLen then .drain else s.eng.phase } }

/-- `RxStep(b)` of a read (R133). -/
def rxStepRead (b : Byte) (s : State) : State :=
  let s' : State := { s with eng := { s.eng with racc := raccAfter s.eng b, rxi := s.eng.rxi + 1 } }
  if s.eng.rxi.toNat + 1 = rdExtra + s.eng.cmdLen.toNat then complete .ok false s'.eng.racc true s' else s'

/-- `RxStep(b)` (R133). -/
def rxStep (b : Byte) (s : State) : State :=
  if isWriteKind s.eng.cmdOp then rxStepWrite b (traceByte .r b s)
  else rxStepRead b (traceByte .r b s)

/-- `RxTimeoutStep` (R134). -/
def rxTimeoutStep (s : State) : State :=
  if isWriteKind s.eng.cmdOp then { s with eng := { s.eng with ackok := false, phase := .drain } }
  else raise .errShortRead s

/-- `DrainStep` (R135). -/
def drainStep (s : State) : State :=
  complete .ok (if s.eng.cmdOp = .flush then false else s.eng.ackok) 0 false
    (if s.eng.cmdSim then s else rxFlush s)

/-! ### A frame on port TX and a reply on the response port -/

/-- The transport accepts the byte SRFE offers; a simulated command needs no acceptance (R37, R129). -/
def txEnabled (s : State) : Bool := s.eng.cmdSim || s.env.txReady

/-- The frame SRFE is about to send: none unless it stands at the start of one (R128, R131). -/
def pendingFrame (s : State) : Option (List Byte) :=
  if s.eng.phase = .tx ∧ s.eng.txi = 0 ∧ s.eng.cks = 0 then
    if isWriteKind s.eng.cmdOp then
      some (writeFrame s.eng.cmdBoard s.eng.cmdAddr s.eng.cmdLen s.eng.shr)
    else if isReadKind s.eng.cmdOp then
      some (readReqFrame s.eng.cmdBoard s.eng.cmdAddr s.eng.cmdLen)
    else none
  else none

/-- A frame starts to go out: the `TxStep` of its header byte, enabled as any other (R37, R129); the TxSteps of
its other bytes are SRFE's next turns (R8, R132). Only the frame SRFE is about to send can go out; for any
other bytes no step is enabled and nothing changes (R37, R104, R129; log 5). -/
def transferFrame (bytes : List Byte) (s : State) : Result :=
  if pendingFrame s = some bytes ∧ txEnabled s = true then txStep s else .next s

/-- The bytes of a reply come in: they join the response source of the command in progress (port SIMRX of a
simulated one, else port RX) (R38, R40, R75; log 6). -/
def offerReply (bytes : List Byte) (s : State) : State :=
  if busy s && s.eng.cmdSim then arriveSim bytes s else arriveRx bytes s

/-- `RxStep` on the oldest byte of the response source, if phase RX and a byte allow it (R129, R133). -/
def rxTurn (s : State) : State :=
  match takeByte s with
  | none => s
  | some (b, t) => rxStep b t

/-- A reply comes in and starts to be taken: one `RxStep` in phase RX; the RxSteps of the other bytes are SRFE's
next turns (R8, R129, R133; log 6). -/
def deliverReply (bytes : List Byte) (s : State) : State := rxTurn (offerReply bytes s)

end Sys2Proof.Machine
end

