-- ==== Sys2Proof/Machine/Flush.lean ====
section
/-! DEFINITION. FLUSH (R195 to R198) and the reserved opcodes (R199, R231). -/

namespace Sys2Proof.Machine

/-- FLUSH: `Accept` with checks 1 and 5, then a `DrainStep` (R195, R197). -/
def execFlush (c : CmdFields) (s : State) : Result := hostCommand .flush c s

/-- op = 5: `Accept` ends it at once with ERR_OP (R199, R231). -/
def execReservedOp5 (c : CmdFields) (s : State) : Result := hostCommand .reserved5 c s

/-- op = 6: `Accept` ends it at once with ERR_OP (R199, R231). -/
def execReservedOp6 (c : CmdFields) (s : State) : Result := hostCommand .reserved6 c s

/-- op = 7: `Accept` ends it at once with ERR_OP (R199, R231). -/
def execReservedOp7 (c : CmdFields) (s : State) : Result := hostCommand .reserved7 c s

end Sys2Proof.Machine
end

