-- ==== Sys2Proof/Machine/Frames.lean ====
section
/-! DEFINITION. The frames SRFE sends: each starts with the TxStep of its header byte and goes on with SRFE's own
TxSteps, one byte a step (R8, R93, R94, R131, R132). -/

namespace Sys2Proof.Machine

/-- A write frame for len 1 starts to go out (R93). -/
def execWrframe1 (h a d0 k : Byte) (s : State) : Result := transferFrame [h, 0x02, a, d0, k] s

/-- A write frame for len 2 starts to go out (R93). -/
def execWrframe2 (h a d0 d1 k : Byte) (s : State) : Result := transferFrame [h, 0x03, a, d0, d1, k] s

/-- A write frame for len 3 starts to go out (R93). -/
def execWrframe3 (h a d0 d1 d2 k : Byte) (s : State) : Result := transferFrame [h, 0x04, a, d0, d1, d2, k] s

/-- A read-request frame for len 1 starts to go out (R94). -/
def execRdreq1 (h a k : Byte) (s : State) : Result := transferFrame [h, 0x82, a, 0x01, k] s

/-- A read-request frame for len 2 starts to go out (R94). -/
def execRdreq2 (h a k : Byte) (s : State) : Result := transferFrame [h, 0x82, a, 0x02, k] s

/-- A read-request frame for len 3 starts to go out (R94). -/
def execRdreq3 (h a k : Byte) (s : State) : Result := transferFrame [h, 0x82, a, 0x03, k] s

end Sys2Proof.Machine
end

