-- ==== Sys2Proof/Machine/Rdreg.lean ====
section
/-! DEFINITION. RDREG, read one register (R160 to R171). -/

namespace Sys2Proof.Machine

/-- RDREG board, addr, len: `Accept` with checks 1, 3, 4, 5; then the read path of the sequencer's own steps
(R160, R167). -/
def execRdreg (c : CmdFields) (s : State) : Result := hostCommand .rdreg c s

end Sys2Proof.Machine
end

