-- ==== Sys2Proof/Machine/Replies.lean ====
section
/-! DEFINITION. The replies SRFE takes: the bytes come in on the response port, SRFE takes the oldest byte by an
RxStep, and takes the others by its own RxSteps, one byte a step (R8, R95, R96, R133). -/

namespace Sys2Proof.Machine

/-- The acknowledgment reply comes in (R95). -/
def execAckreply (s : State) : Result := .next (deliverReply [ackByte, ackByte] s)

/-- A read reply for len 1 comes in (R96). -/
def execRdreply1 (f d0 l : Byte) (s : State) : Result := .next (deliverReply [f, d0, l] s)

/-- A read reply for len 2 comes in (R96). -/
def execRdreply2 (f d0 d1 l : Byte) (s : State) : Result := .next (deliverReply [f, d0, d1, l] s)

/-- A read reply for len 3 comes in (R96). -/
def execRdreply3 (f d0 d1 d2 l : Byte) (s : State) : Result := .next (deliverReply [f, d0, d1, d2, l] s)

end Sys2Proof.Machine
end

