-- ==== Sys2Proof/Machine/SetGet.lean ====
section
/-! DEFINITION. SET and GET, the register address dispatcher (R180 to R188). -/

namespace Sys2Proof.Machine

/-- SET board, rsel, wdata: `Accept` looks (address, length) up, then exactly as WRREG (R182, R183, R186). -/
def execSet (c : CmdFields) (s : State) : Result := hostCommand .set c s

/-- GET board, rsel: `Accept` looks (address, length) up, then exactly as RDREG (R184, R185, R186). -/
def execGet (c : CmdFields) (s : State) : Result := hostCommand .get c s

end Sys2Proof.Machine
end

