-- ==== Sys2Proof/Machine/Wrreg.lean ====
section
/-! DEFINITION. WRREG, write one register (R140 to R150). -/

namespace Sys2Proof.Machine

/-- WRREG board, addr, len, wdata: `Accept` with checks 1, 3, 4, 5; then the write path of the sequencer's own
steps (R140, R145). -/
def execWrreg (c : CmdFields) (s : State) : Result := hostCommand .wrreg c s

end Sys2Proof.Machine
end

