-- ==== Sys2Proof/Machine/Dispatch.lean ====
section
/-! DEFINITION. The meaning of each row of the opcode table: one arm per constructor of Instr. -/

namespace Sys2Proof.Machine

def exec (i : Instr) (s : State) : Host.Outcome State Fault Refusal :=
  match i with
  | .wrreg c => Sys2Proof.Machine.execWrreg c s
  | .rdreg c => Sys2Proof.Machine.execRdreg c s
  | .set c => Sys2Proof.Machine.execSet c s
  | .get c => Sys2Proof.Machine.execGet c s
  | .flush c => Sys2Proof.Machine.execFlush c s
  | .reservedOp5 c => Sys2Proof.Machine.execReservedOp5 c s
  | .reservedOp6 c => Sys2Proof.Machine.execReservedOp6 c s
  | .reservedOp7 c => Sys2Proof.Machine.execReservedOp7 c s
  | .wrframe1 h a d0 k => Sys2Proof.Machine.execWrframe1 h a d0 k s
  | .wrframe2 h a d0 d1 k => Sys2Proof.Machine.execWrframe2 h a d0 d1 k s
  | .wrframe3 h a d0 d1 d2 k => Sys2Proof.Machine.execWrframe3 h a d0 d1 d2 k s
  | .rdreq1 h a k => Sys2Proof.Machine.execRdreq1 h a k s
  | .rdreq2 h a k => Sys2Proof.Machine.execRdreq2 h a k s
  | .rdreq3 h a k => Sys2Proof.Machine.execRdreq3 h a k s
  | .ackreply => Sys2Proof.Machine.execAckreply s
  | .rdreply1 f d0 l => Sys2Proof.Machine.execRdreply1 f d0 l s
  | .rdreply2 f d0 d1 l => Sys2Proof.Machine.execRdreply2 f d0 d1 l s
  | .rdreply3 f d0 d1 d2 l => Sys2Proof.Machine.execRdreply3 f d0 d1 d2 l s

end Sys2Proof.Machine
end

