-- ==== Sys2Proof/Machine/Turn.lean ====
section
/-! DEFINITION. Who moves next: SRFE's own turn (R129), the environment's events (R75, R136), and placing
an opcode-table word where the next step takes it. `step` (Step.lean) only calls these. -/

namespace Sys2Proof.Machine

/-- An instruction standing at a port, run where its bytes are a row of the table. Bytes that are no row
are still bytes: a reply of any shape comes in (R105), and a frame SRFE is not sending does not go out
(R104; log 7). -/
def runPortWord (p : PortWord) (s : State) : Result :=
  match decode p with
  | .ok i => exec i s
  | .error _ =>
    match p with
    | .reply bytes => .next (deliverReply bytes s)
    | _ => .next s

/-- SRFE's own step in each phase (R26, R129). IDLE: the command at the port, if any, is taken off it and
run. TX: a byte goes out if the command is simulated or the transport accepts. RX: the oldest response
byte, if any. DRAIN: the drain. Otherwise SRFE waits, and nothing changes (R76, R274; log 17). -/
def srfeTurn (s : State) : Result :=
  match s.eng.phase with
  | .idle =>
    match s.env.cmdPort with
    | none => .next s
    | some w => runPortWord (.cmd w) (setCmdPort none s)
  | .tx => if txEnabled s then txStep s else .next s
  | .rx => .next (rxTurn s)
  | .drain => .next (drainStep s)

/-- One event of the environment (R75, R136, R260). A timeout is honoured only in phase RX, on the port in
use (R38, R40). -/
def applyEvent (e : EnvEvent) (s : State) : Result :=
  match e with
  | .turn => srfeTurn s
  | .command w => .next (setCmdPort (some w) s)
  | .withdraw => .next (setCmdPort none s)
  | .arrive b => .next (arriveRx [b] s)
  | .canned b => .next (arriveSim [b] s)
  | .rxTimeout => .next (if rxReady s then rxTimeoutStep s else s)
  | .simTimeout => .next (if simReady s then rxTimeoutStep s else s)
  | .simMode v => .next (setSimMode v s)
  | .linkOk v => .next (setLinkOk v s)
  | .txReady v => .next (setTxReady v s)
  | .reset => .next (resetStep s)
  | .frame bytes => runPortWord (.frame bytes) s
  | .reply bytes => runPortWord (.reply bytes) s

/-- One step: the environment's next event, or SRFE's own turn where none is scheduled. Each holds at most one
of SRFE's steps (R8; log 1). -/
def nextStep (s : State) : Result :=
  match s.env.script with
  | [] => srfeTurn s
  | e :: rest => applyEvent e (setScript rest s)

/-! ### Placing a word (log 9) -/

/-- The engine at the start of sending the frame with this header, length, address and data: what `Accept`
of the WRREG or RDREG that sends it leaves (R130). DESIGN CHOICE (log 27): the board is `header - 0xAA` modulo
256 whatever the header is, and is not held against NBOARDS, so a header that no configured board has (R104)
is latched too, which leaves a state outside R45. -/
def latchFrame (op : Op) (header addr : Byte) (len : BitVec 2) (data : BitVec 24) (s : State) : State :=
  startCommand op addr len (data.setWidth 32)
    (latchCommand op { board := header - hdrBase, addr := addr, len := len, rsel := 0, wdata := 0 } s)

/-- The state in which the frame of a frame term is the one SRFE is about to send. -/
def latchInstr (i : Instr) (s : State) : State :=
  match i with
  | .wrframe1 h a d0 _ => latchFrame .wrreg h a 1 (leValue [d0]) s
  | .wrframe2 h a d0 d1 _ => latchFrame .wrreg h a 2 (leValue [d0, d1]) s
  | .wrframe3 h a d0 d1 d2 _ => latchFrame .wrreg h a 3 (leValue [d0, d1, d2]) s
  | .rdreq1 h a _ => latchFrame .rdreg h a 1 0 s
  | .rdreq2 h a _ => latchFrame .rdreg h a 2 0 s
  | .rdreq3 h a _ => latchFrame .rdreg h a 3 0 s
  | .wrreg _ | .rdreg _ | .set _ | .get _ | .flush _ => s
  | .reservedOp5 _ | .reservedOp6 _ | .reservedOp7 _ => s
  | .ackreply | .rdreply1 _ _ _ | .rdreply2 _ _ _ _ | .rdreply3 _ _ _ _ _ => s

/-- Put a word where the next step takes it: a command on the command port of an idle SRFE, a frame as the next
to start from an SRFE about to send it to a transport that accepts, a reply as the next to come in. -/
def placePortWord (p : PortWord) (s : State) : State :=
  match p with
  | .cmd w =>
    let t := setScript (.turn :: s.env.script) (setCmdPort (some w) s)
    { t with eng := { t.eng with phase := .idle } }
  | .frame bytes =>
    let t := setTxReady true (setScript (.frame bytes :: s.env.script) s)
    match decode p with
    | .ok i => latchInstr i t
    | .error _ => t
  | .reply bytes => setScript (.reply bytes :: s.env.script) s

/-- `State.withFetchWord` by way of the table's numbering (R110). -/
def placeTableWord (nbits w : Nat) (s : State) : State :=
  match portWordOf nbits w with
  | none => s
  | some p => placePortWord p s

end Sys2Proof.Machine
end

