-- ==== Sys2Proof/Machine/Step.lean ====
section
/-! DEFINITION. The step function, and the placing of an opcode-table word where it takes its next one. -/

namespace Sys2Proof.Machine

/-- One step of the machine (R8, R129, R139). -/
def step (s : State) : Host.Outcome State Fault Refusal := Sys2Proof.Machine.nextStep s

/-- `s` with the instruction of opcode-table word `w` standing where the next step runs it (log 9). -/
def State.withFetchWord (s : State) (nbits w : Nat) : State := Sys2Proof.Machine.placeTableWord nbits w s

end Sys2Proof.Machine
end

