-- ==== Sys2Proof/WellFormed.lean ====
section
/-! DEFINITION. Which configurations, commands, frames and replies the spec calls legal: the parameter
ranges of R4 and R71, the operand ranges of R106 and the `constraints` of the opcode table (R92 to R94,
R103, R110). An ill-formed command still has a meaning (it ends with a status, R103). -/

namespace Sys2Proof

open Sys2Proof.Machine

/-- CATALOG_EXT as R71 asks: rsel in 5 .. 255 and distinct, names distinct from every other, length in
1 .. 3; NBOARDS in 1 .. 86 (R4). -/
def Config.wf (cfg : Config) : Bool :=
  decide (1 ≤ cfg.nboards) && decide (cfg.nboards ≤ maxBoards) &&
    cfg.catalogExt.all (fun e => decide (5 ≤ e.rsel.toNat) && e.len != 0) &&
    decide ((catalog cfg).map (·.rsel)).Nodup && decide ((catalog cfg).map (·.name)).Nodup

/-- The header byte is that of a configured board (R92). -/
def headerWf (cfg : Config) (header : Byte) : Bool :=
  decide (hdrBase.toNat ≤ header.toNat) && decide (header.toNat < hdrBase.toNat + cfg.nboards)

/-- A frame is legal when its header is that of a configured board and its last byte is the checksum of
the bytes before it (R92, R123, opcode table). -/
def frameWf (cfg : Config) (body : List Byte) (cks : Byte) : Bool :=
  body.head?.all (headerWf cfg) && cks == checksum body

/-- The board operand is in range (R106). -/
def boardWf (cfg : Config) (c : CmdFields) : Bool := decide (c.board.toNat < cfg.nboards)

/-- A term of `Instr` that the spec calls legal. The reserved opcodes are never legal (R103); every read
reply is (R105). -/
def Instr.wf (cfg : Config) : Instr → Bool
  | .wrreg c => c.len != 0 && boardWf cfg c
  | .rdreg c => c.len != 0 && boardWf cfg c
  | .set c => (catLookup cfg c.rsel).isSome && boardWf cfg c
  | .get c => (catLookup cfg c.rsel).isSome && boardWf cfg c
  | .flush _ => true
  | .reservedOp5 _ => false
  | .reservedOp6 _ => false
  | .reservedOp7 _ => false
  | .wrframe1 h a d0 k => frameWf cfg [h, 0x02, a, d0] k
  | .wrframe2 h a d0 d1 k => frameWf cfg [h, 0x03, a, d0, d1] k
  | .wrframe3 h a d0 d1 d2 k => frameWf cfg [h, 0x04, a, d0, d1, d2] k
  | .rdreq1 h a k => frameWf cfg [h, 0x82, a, 0x01] k
  | .rdreq2 h a k => frameWf cfg [h, 0x82, a, 0x02] k
  | .rdreq3 h a k => frameWf cfg [h, 0x82, a, 0x03] k
  | .ackreply => true
  | .rdreply1 _ _ _ => true
  | .rdreply2 _ _ _ _ => true
  | .rdreply3 _ _ _ _ _ => true

end Sys2Proof
end

