-- ==== Sys2Proof/Safety.lean ====
section
/-! DEFINITION. What counts as a safe state and a run of SRFE, in the terms the statements use: the
invariants of R45, the clean launch of R265, the end of a run of R266, and `n` steps in a row. -/

namespace Sys2Proof.Machine

/-- CMD_OP is a register command (R45 (a)). -/
def isRegisterOp (op : Op) : Bool := isWriteKind op || isReadKind op

/-- R45 (a): in phases TX and RX the command latch holds a legal register command. -/
abbrev LatchOk (s : State) : Prop :=
  (s.eng.phase = .tx ∨ s.eng.phase = .rx) →
    isRegisterOp s.eng.cmdOp = true ∧ s.eng.cmdLen ≠ 0 ∧ s.eng.cmdBoard.toNat < s.cfg.nboards

/-- R45 (b): in phase TX the index is inside the frame. -/
abbrev TxIndexOk (s : State) : Prop :=
  s.eng.phase = .tx → s.eng.txi.toNat < frameLen s.eng.cmdOp s.eng.cmdLen

/-- R45 (c): in phase RX the count is below RxN. -/
abbrev RxCountOk (s : State) : Prop :=
  s.eng.phase = .rx → s.eng.rxi.toNat < rxN s.eng.cmdOp s.eng.cmdLen

/-- R45 (d): a write in phase RX is not simulated. -/
abbrev RxWriteIsReal (s : State) : Prop :=
  s.eng.phase = .rx → isWriteKind s.eng.cmdOp = true → s.eng.cmdSim = false

/-- R45 (e): what can stand in phase DRAIN. -/
abbrev DrainOk (s : State) : Prop :=
  s.eng.phase = .drain →
    s.eng.cmdOp = .flush ∨ (isWriteKind s.eng.cmdOp = true ∧ s.eng.cmdSim = false)

/-- R45 (f): a valid value or an acknowledgment goes with STATUS = OK. -/
abbrev ResultOk (s : State) : Prop :=
  (s.eng.rvalid = true → s.eng.status = .ok) ∧ (s.eng.ack = true → s.eng.status = .ok)

/-- R45 (g): RACC fits the register's length in phase RX of a read. -/
abbrev RaccOk (s : State) : Prop :=
  s.eng.phase = .rx → isReadKind s.eng.cmdOp = true → s.eng.racc.toNat < 2 ^ (8 * s.eng.cmdLen.toNat)

/-- The invariants (a) to (g) of R45. -/
abbrev InvR45 (s : State) : Prop :=
  s.cfg.nboards ≤ maxBoards ∧ LatchOk s ∧ TxIndexOk s ∧ RxCountOk s ∧ RxWriteIsReal s ∧ DrainOk s ∧
    ResultOk s ∧ RaccOk s

/-- What R45 rests on between steps: in phase TX nothing has been received yet, and in phase RX of a read
RACC holds only the data bytes counted so far (R24, R130). -/
abbrev Underway (s : State) : Prop :=
  (s.eng.phase = .tx → s.eng.rxi = 0 ∧ s.eng.racc = 0) ∧
    (s.eng.phase = .rx → isReadKind s.eng.cmdOp = true →
      s.eng.racc.toNat < 2 ^ (8 * (s.eng.rxi.toNat - 1)))

/-- The invariant every step keeps: R45 with what it rests on. -/
abbrev Invariant (s : State) : Prop := InvR45 s ∧ Underway s

/-- The event drives one of the pins `sim_mode` and `link_ok` (R33, R34). -/
def drivesPin : EnvEvent → Bool
  | .simMode _ | .linkOk _ => true
  | .turn | .command _ | .withdraw | .arrive _ | .canned _ | .rxTimeout | .simTimeout => false
  | .txReady _ | .reset | .frame _ | .reply _ => false

/-- The result registers hold their reset values (which are those of a FLUSH) or what some `Complete` of R137
leaves: a write or FLUSH, a complete read, or an end with another status. -/
abbrev ResultsOfACompletion (s : State) : Prop :=
  (s.eng.status = .ok ∧ s.eng.rdata = 0 ∧ s.eng.rvalid = false) ∨
    (s.eng.status = .ok ∧ s.eng.ack = false ∧ s.eng.rvalid = true) ∨
    (s.eng.status ≠ .ok ∧ s.eng.ack = false ∧ s.eng.rdata = 0 ∧ s.eng.rvalid = false)

/-- The clean launch of R265 with the canned data that a claim names: idle; the result registers at reset or
completion values; an empty pending input in real mode, exactly that canned data in simulated mode; pins that
nothing drives during the run; legal parameters, which no step changes. -/
abbrev CleanLaunch (canned : List Byte) (s : State) : Prop :=
  s.eng.phase = .idle ∧ ResultsOfACompletion s ∧
    (s.env.simMode = false → s.env.rxq = []) ∧ (s.env.simMode = true → s.env.simq = canned) ∧
    (∀ e ∈ s.env.script, drivesPin e = false) ∧ s.cfg.wf = true

/-- A run of `k` commands from `s` is over in `t`: the k-th `done` since `s` has pulsed and SRFE is idle (R266).
It says nothing about the boards or about bytes that arrive later. -/
abbrev RunOver (k : Nat) (s t : State) : Prop :=
  t.env.doneCount = s.env.doneCount + k ∧ t.eng.phase = .idle

/-- `n` steps, stopping at the first fault or refusal. -/
def run : Nat → State → Result
  | 0, s => .next s
  | n + 1, s =>
    match step s with
    | .next t => run n t
    | .fault f => .fault f
    | .refused r => .refused r

/-! ### Terms of the statements -/

/-- The trace pulses of bytes shown in one direction (R41). -/
def traced (dir : TraceDir) (bytes : List Byte) : List TraceEvent :=
  bytes.map fun b => { dir := dir, data := b }

/-- A command ended with status `st` in `Accept` (R236): the result registers and one `done` pulse say so,
and nothing else changed but the part of the command latch that `Accept` writes first. -/
abbrev EndedWith (st : Status) (s t : State) : Prop :=
  t.cfg = s.cfg ∧ t.env = { s.env with doneCount := s.env.doneCount + 1 } ∧
    t.eng = { s.eng with
      cmdOp := t.eng.cmdOp, cmdBoard := t.eng.cmdBoard, cmdSim := t.eng.cmdSim
      status := st, ack := false, rdata := 0, rvalid := false, phase := .idle }

/-- A command completed with these results (R137): idle again, the four result registers written. -/
abbrev CompletedWith (st : Status) (ack : Bool) (rdata : BitVec 24) (rvalid : Bool) (t : State) : Prop :=
  t.eng.phase = .idle ∧ t.eng.status = st ∧ t.eng.ack = ack ∧ t.eng.rdata = rdata ∧ t.eng.rvalid = rvalid

/-- Two outcomes of a step that differ at most in the value of CMD_OP (R183, R185). -/
def agreeButOp : Result → Result → Prop
  | .next t, .next u => ({ t with eng := { t.eng with cmdOp := .wrreg } } : State) =
      { u with eng := { u.eng with cmdOp := .wrreg } }
  | .fault f, .fault g => f = g
  | .refused f, .refused g => f = g
  | _, _ => False

/-- Two outcomes of a step that differ at most in the values of CMD_OP and SHR (R22, R185). -/
def agreeButOpAndShr : Result → Result → Prop
  | .next t, .next u => ({ t with eng := { t.eng with cmdOp := .wrreg, shr := 0 } } : State) =
      { u with eng := { u.eng with cmdOp := .wrreg, shr := 0 } }
  | .fault f, .fault g => f = g
  | .refused f, .refused g => f = g
  | _, _ => False

/-- A command of write kind and the register it writes: WRREG names it, SET looks it up (R140, R182). -/
abbrev WritesRegister (cfg : Config) (i : Instr) (c : CmdFields) (a : Byte) (l : BitVec 2) : Prop :=
  (i = .wrreg c ∧ a = c.addr ∧ l = c.len) ∨ (i = .set c ∧ catLookup cfg c.rsel = some (a, l))

/-- A command of read kind and the register it reads: RDREG names it, GET looks it up (R160, R184). -/
abbrev ReadsRegister (cfg : Config) (i : Instr) (c : CmdFields) (a : Byte) (l : BitVec 2) : Prop :=
  (i = .rdreg c ∧ a = c.addr ∧ l = c.len) ∨ (i = .get c ∧ catLookup cfg c.rsel = some (a, l))

/-- The eight terms of `Instr` that stand at the host command port. -/
def isCommand : Instr → Bool
  | .wrreg _ | .rdreg _ | .set _ | .get _ | .flush _ => true
  | .reservedOp5 _ | .reservedOp6 _ | .reservedOp7 _ => true
  | .wrframe1 _ _ _ _ | .wrframe2 _ _ _ _ _ | .wrframe3 _ _ _ _ _ _ => false
  | .rdreq1 _ _ _ | .rdreq2 _ _ _ | .rdreq3 _ _ _ => false
  | .ackreply | .rdreply1 _ _ _ | .rdreply2 _ _ _ _ | .rdreply3 _ _ _ _ _ => false

/-- The queue of the response source of a command in that mode (R7, R38, R40). -/
def responseQueue (sim : Bool) (s : State) : List Byte := if sim then s.env.simq else s.env.rxq

end Sys2Proof.Machine
end

