-- ==== Sys2Proof/Certificates/Slice0/Obligations.lean ====
section
/-! DEFINITION. The statements for the provers, each a numbered rule of spec/ or what follows from some.
Where a statement rests on a choice of the model, its docstring names the log entry. -/

open Sys2Proof Sys2Proof.Machine

/-! ### Encodings -/

/-- R93 to R96, R100, R101: the decoder reads back every term from its word at its port. -/
def Obligations.DecodeInvertsEncode : Prop :=
  ∀ i : Instr, decode (encode i) = .ok i

/-- R100, R101: every 61-bit word is exactly one command, and no bit of it is lost. -/
def Obligations.EncodeInvertsDecodeOfCommandWords : Prop :=
  ∀ w : CmdWord, ∃ i, decode (.cmd w) = .ok i ∧ encode i = .cmd w

/-- R93 to R96, R100, R101, with the words of 95 sections 1 and 2, R150, R169 and R171: words the spec writes
out decode to the terms they stand for. -/
def Obligations.SpecWordsDecode : Prop :=
  decode (.cmd 0x00082A000000012C) =
      .ok (.wrreg { board := 2, addr := 10, len := 2, rsel := 0, wdata := 300 }) ∧
    decode (.cmd 0x0404CF0000000000) =
      .ok (.rdreg { board := 1, addr := 51, len := 3, rsel := 0, wdata := 0 }) ∧
    decode (.cmd 0x0804000200000050) =
      .ok (.set { board := 1, addr := 0, len := 0, rsel := 2, wdata := 80 }) ∧
    decode (.cmd 0x0C0BFC01DEADBEEF) =
      .ok (.get { board := 2, addr := 0xFF, len := 0, rsel := 1, wdata := 0xDEADBEEF }) ∧
    decode (.cmd 0x1000000000000000) =
      .ok (.flush { board := 0, addr := 0, len := 0, rsel := 0, wdata := 0 }) ∧
    decode (.frame [0xAC, 0x03, 0x0A, 0x2C, 0x01, 0x3A]) = .ok (.wrframe2 0xAC 0x0A 0x2C 0x01 0x3A) ∧
    decode (.frame [0xAA, 0x82, 0x33, 0x03, 0xB8]) = .ok (.rdreq3 0xAA 0x33 0xB8) ∧
    decode (.reply [0x41, 0x41]) = .ok .ackreply ∧
    decode (.reply [0x00, 0xE8, 0x03, 0x00, 0x00]) = .ok (.rdreply3 0x00 0xE8 0x03 0x00 0x00)

/-- R109: the reference parser gives back board, address, length and the value cut to `8*len` bits; the
two frame types never collide, since index 1 is at most 4 in one and 0x82 in the other; and the three bytes of a 24-bit value decode back to it. -/
def Obligations.ReferenceParserRoundTrip : Prop :=
  (∀ (n : Nat) (board addr : Byte) (len : BitVec 2) (value : BitVec 32),
    n ≤ maxBoards → board.toNat < n → len ≠ 0 →
      (∃ v : BitVec 24, v.toNat = value.toNat % 2 ^ (8 * len.toNat) ∧
        decodeRequest n (writeFrame board addr len value) = some (.write board addr len v)) ∧
      decodeRequest n (readReqFrame board addr len) = some (.readReq board addr len)) ∧
    (∀ (b a b' a' : Byte) (l l' : BitVec 2) (v : BitVec 32),
      (writeFrame b a l v)[1]? = some (lengthByte l) ∧ (lengthByte l).toNat ≤ 4 ∧
        (readReqFrame b' a' l')[1]? = some 0x82) ∧
    (∀ v : BitVec 32, v.toNat < 2 ^ 24 → (leValue (pack v 3)).toNat = v.toNat)

/-- R108, R92, R103: the reference parser accepts exactly the frames that the decoder reads as legal. -/
def Obligations.ReferenceParserAcceptsExactlyLegalFrames : Prop :=
  ∀ (cfg : Config) (f : List Byte), cfg.nboards ≤ maxBoards →
    ((decodeRequest cfg.nboards f).isSome = true ↔ ∃ i, decode (.frame f) = .ok i ∧ i.wf cfg = true)

/-! ### Datapath -/

/-- R124's law: unpacking a packed value gives it back modulo `2^(8*len)`, whatever the first and last
reply bytes are. -/
def Obligations.UnpackInvertsPack : Prop :=
  ∀ (v : BitVec 32) (len : BitVec 2) (first last : Byte),
    (unpack (first :: (pack v len.toNat ++ [last])) len.toNat).toNat = v.toNat % 2 ^ (8 * len.toNat)

/-- R122, R144: two values with the same low `8*len` bits are sent as the same frame. -/
def Obligations.WriteFrameIgnoresHighBits : Prop :=
  ∀ (board addr : Byte) (len : BitVec 2) (v w : BitVec 32),
    v.toNat % 2 ^ (8 * len.toNat) = w.toNat % 2 ^ (8 * len.toNat) →
      writeFrame board addr len v = writeFrame board addr len w

/-- R123: the checksum is the exact sum of the bytes after the header, modulo 256. -/
def Obligations.ChecksumIsSumModulo256 : Prop :=
  ∀ (h : Byte) (g : List Byte), (checksum (h :: g)).toNat = (g.map (·.toNat)).sum % 256

/-- R180: the five fixed entries in every configuration; the entries of a legal CATALOG_EXT; and none for
every other selector, so for every selector from 5 on in the default configuration. -/
def Obligations.CatalogLookup : Prop :=
  (∀ cfg : Config, catLookup cfg 0 = some (47, 3) ∧ catLookup cfg 1 = some (51, 3) ∧
      catLookup cfg 2 = some (44, 1) ∧ catLookup cfg 3 = some (57, 2) ∧ catLookup cfg 4 = some (178, 1)) ∧
    (∀ (cfg : Config) (e : CatEntry), cfg.wf = true → e ∈ cfg.catalogExt →
      catLookup cfg e.rsel = some (e.addr, e.len)) ∧
    (∀ (cfg : Config) (rsel : Byte), 5 ≤ rsel.toNat → (∀ e ∈ cfg.catalogExt, e.rsel ≠ rsel) →
      catLookup cfg rsel = none) ∧
    ∀ rsel : Byte, 5 ≤ rsel.toNat → catLookup Config.default rsel = none

/-! ### Accept -/

/-- R130, R140, R160: an idle SRFE takes a legal WRREG or RDREG, latches it and starts its frame; nothing
outside the working registers changes. -/
def Obligations.WrregAndRdregAreAccepted : Prop :=
  ∀ (s : State) (c : CmdFields), s.eng.phase = .idle → c.len ≠ 0 → c.board.toNat < s.cfg.nboards →
    (s.env.simMode = true ∨ s.env.linkOk = true) →
    exec (.wrreg c) s = .next { s with eng := { s.eng with
      cmdOp := .wrreg, cmdBoard := c.board, cmdAddr := c.addr, cmdLen := c.len, cmdSim := s.env.simMode
      shr := c.wdata, cks := 0, racc := 0, txi := 0, rxi := 0, ackok := true, phase := .tx } } ∧
    exec (.rdreg c) s = .next { s with eng := { s.eng with
      cmdOp := .rdreg, cmdBoard := c.board, cmdAddr := c.addr, cmdLen := c.len, cmdSim := s.env.simMode
      shr := c.wdata, cks := 0, racc := 0, txi := 0, rxi := 0, ackok := true, phase := .tx } }

/-- R130, R182, R184: an idle SRFE takes a SET or GET of a catalog register with the address and length of
its entry; nothing outside the working registers changes. -/
def Obligations.SetAndGetAreAccepted : Prop :=
  ∀ (s : State) (c : CmdFields) (a : Byte) (l : BitVec 2), s.eng.phase = .idle →
    catLookup s.cfg c.rsel = some (a, l) → l ≠ 0 → c.board.toNat < s.cfg.nboards →
    (s.env.simMode = true ∨ s.env.linkOk = true) →
    exec (.set c) s = .next { s with eng := { s.eng with
      cmdOp := .set, cmdBoard := c.board, cmdAddr := a, cmdLen := l, cmdSim := s.env.simMode
      shr := c.wdata, cks := 0, racc := 0, txi := 0, rxi := 0, ackok := true, phase := .tx } } ∧
    exec (.get c) s = .next { s with eng := { s.eng with
      cmdOp := .get, cmdBoard := c.board, cmdAddr := a, cmdLen := l, cmdSim := s.env.simMode
      shr := c.wdata, cks := 0, racc := 0, txi := 0, rxi := 0, ackok := true, phase := .tx } }

/-- R195 to R197: FLUSH is taken whatever its other fields hold, and the next turn discards the pending
input (real mode) or touches nothing (simulated mode) and ends it with (OK, 0, 0, 0). -/
def Obligations.FlushNetEffect : Prop :=
  ∀ (s : State) (c : CmdFields), s.eng.phase = .idle → s.env.script = [] →
    (s.env.simMode = true ∨ s.env.linkOk = true) →
    ∃ t u, exec (.flush c) s = .next t ∧
      t = { s with eng := { s.eng with
        cmdOp := .flush, cmdBoard := c.board, cmdAddr := c.addr, cmdLen := c.len, cmdSim := s.env.simMode
        shr := c.wdata, cks := 0, racc := 0, txi := 0, rxi := 0, ackok := true, phase := .drain } } ∧
      step t = .next u ∧ u.cfg = s.cfg ∧
      u.eng = { t.eng with phase := .idle, status := .ok, ack := false, rdata := 0, rvalid := false } ∧
      u.env = if s.env.simMode then { s.env with doneCount := s.env.doneCount + 1 }
        else { s.env with
          rxq := [], flushCount := s.env.flushCount + 1, doneCount := s.env.doneCount + 1 }

/-- R199, R231: a reserved opcode ends at once with ERR_OP, whatever its other fields, the pins and the
configuration are. The latch of CMD_OP, CMD_BOARD and CMD_SIM is left open here (log 13). -/
def Obligations.ReservedOpcodesEndWithErrOp : Prop :=
  ∀ (s : State) (c : CmdFields), s.eng.phase = .idle →
    ∀ i ∈ [Instr.reservedOp5 c, Instr.reservedOp6 c, Instr.reservedOp7 c],
      ∃ t, exec i s = .next t ∧ EndedWith .errOp s t

/-- R233, R237: SET and GET of an rsel that no catalog entry has end with ERR_UNKNOWN_REG in both modes,
before the board and the link are looked at. -/
def Obligations.UnknownRegisterEndsSetAndGet : Prop :=
  ∀ (s : State) (c : CmdFields), s.eng.phase = .idle → catLookup s.cfg c.rsel = none →
    ∀ i ∈ [Instr.set c, Instr.get c], ∃ t, exec i s = .next t ∧ EndedWith .errUnknownReg s t

/-- R235, R237: WRREG and RDREG with `len = 0` end with ERR_LEN in both modes, before the board and the
link are looked at. -/
def Obligations.ZeroLengthEndsWrregAndRdreg : Prop :=
  ∀ (s : State) (c : CmdFields), s.eng.phase = .idle → c.len = 0 →
    ∀ i ∈ [Instr.wrreg c, Instr.rdreg c], ∃ t, exec i s = .next t ∧ EndedWith .errLen s t

/-- R234, R237: a register command whose earlier checks pass ends with ERR_BOARD in both modes if its board
is not configured, before the link is looked at. -/
def Obligations.BoardOutOfRangeEndsRegisterCommands : Prop :=
  ∀ (s : State) (c : CmdFields) (i : Instr) (a : Byte) (l : BitVec 2), s.eng.phase = .idle →
    (WritesRegister s.cfg i c a l ∨ ReadsRegister s.cfg i c a l) → l ≠ 0 →
    s.cfg.nboards ≤ c.board.toNat → ∃ t, exec i s = .next t ∧ EndedWith .errBoard s t

/-- R232, R237: a command whose other checks pass ends with ERR_LINK in real mode without a link. -/
def Obligations.MissingLinkEndsRealCommands : Prop :=
  ∀ (s : State) (c : CmdFields) (i : Instr) (a : Byte) (l : BitVec 2), s.eng.phase = .idle →
    s.env.simMode = false → s.env.linkOk = false →
    (i = .flush c ∨
      ((WritesRegister s.cfg i c a l ∨ ReadsRegister s.cfg i c a l) ∧ l ≠ 0 ∧
        c.board.toNat < s.cfg.nboards)) →
    ∃ t, exec i s = .next t ∧ EndedWith .errLink s t

/-- R32, R136: a command presented while BUSY has no effect, and it stays at the port (the model's choice,
log 2, from R35 and R275). -/
def Obligations.BusyCommandIsNotTaken : Prop :=
  (∀ (s : State) (i : Instr), busy s = true → isCommand i = true → exec i s = .next s) ∧
    (∀ s t : State, busy s = true → s.env.script = [] → step s = .next t →
      t.env.cmdPort = s.env.cmdPort)

/-! ### Whole commands -/

/-- R141, R143, R147: a write in real mode whose reply is two bytes or more. The frame goes out, two bytes
are taken, the rest is drained, and ACK says whether both were 0x41. Schedule: SRFE moves at every step. -/
def Obligations.RealWriteNetEffect : Prop :=
  ∀ (s : State) (i : Instr) (c : CmdFields) (a : Byte) (l : BitVec 2) (r0 r1 : Byte) (rest : List Byte),
    s.eng.phase = .idle → WritesRegister s.cfg i c a l → l ≠ 0 → c.board.toNat < s.cfg.nboards →
    s.env.simMode = false → s.env.linkOk = true → s.env.txReady = true → s.env.script = [] →
    s.env.rxq = r0 :: r1 :: rest →
    ∃ t u, exec i s = .next t ∧ run (4 + l.toNat + 3) t = .next u ∧ u.cfg = s.cfg ∧
      CompletedWith .ok (ackMatch [r0, r1]) 0 false u ∧
      u.env = { s.env with
        wireOut := s.env.wireOut ++ writeFrame c.board a l c.wdata
        trace := s.env.trace ++ traced .t (writeFrame c.board a l c.wdata) ++ traced .r [r0, r1]
        rxq := [], flushCount := s.env.flushCount + 1, doneCount := s.env.doneCount + 1 }

/-- R134, R141, R143, R147: a write in real mode whose reply is short or absent ends like an
unacknowledged one, with ACK = 0 and STATUS = OK, after its drain. Schedule: SRFE moves until the pending
input is used up, then the transport times out, then SRFE moves once more. -/
def Obligations.ShortAcknowledgmentIsNotAcknowledged : Prop :=
  ∀ (s : State) (i : Instr) (c : CmdFields) (a : Byte) (l : BitVec 2),
    s.eng.phase = .idle → WritesRegister s.cfg i c a l → l ≠ 0 → c.board.toNat < s.cfg.nboards →
    s.env.simMode = false → s.env.linkOk = true → s.env.txReady = true → s.env.rxq.length < 2 →
    s.env.script =
      List.replicate (4 + l.toNat + s.env.rxq.length) EnvEvent.turn ++ [EnvEvent.rxTimeout, EnvEvent.turn] →
    ∃ t u, exec i s = .next t ∧ run (4 + l.toNat + s.env.rxq.length + 2) t = .next u ∧ u.cfg = s.cfg ∧
      CompletedWith .ok false 0 false u ∧
      u.env = { s.env with
        wireOut := s.env.wireOut ++ writeFrame c.board a l c.wdata
        trace := s.env.trace ++ traced .t (writeFrame c.board a l c.wdata) ++ traced .r s.env.rxq
        rxq := [], flushCount := s.env.flushCount + 1, doneCount := s.env.doneCount + 1, script := [] }

/-- R142, R147: a simulated write is traced, touches neither the transport nor the canned data, and is
always acknowledged; neither `link_ok` nor the transport's readiness matters. -/
def Obligations.SimulatedWriteNetEffect : Prop :=
  ∀ (s : State) (i : Instr) (c : CmdFields) (a : Byte) (l : BitVec 2),
    s.eng.phase = .idle → WritesRegister s.cfg i c a l → l ≠ 0 → c.board.toNat < s.cfg.nboards →
    s.env.simMode = true → s.env.script = [] →
    ∃ t u, exec i s = .next t ∧ run (4 + l.toNat) t = .next u ∧ u.cfg = s.cfg ∧
      CompletedWith .ok true 0 false u ∧
      u.env = { s.env with
        trace := s.env.trace ++ traced .t (writeFrame c.board a l c.wdata)
        doneCount := s.env.doneCount + 1 }

/-- R161 to R164, R168: a read with a complete reply, in real mode (from the pending input, the frame on the
wire) and in simulated mode (from the canned data, nothing on the wire). Exactly `2 + len` bytes are taken,
nothing is drained, and RDATA is their value. -/
def Obligations.CompleteReadNetEffect : Prop :=
  ∀ (s : State) (i : Instr) (c : CmdFields) (a : Byte) (l : BitVec 2) (resp rest : List Byte),
    s.eng.phase = .idle → ReadsRegister s.cfg i c a l → l ≠ 0 → c.board.toNat < s.cfg.nboards →
    (s.env.simMode = true ∨ (s.env.linkOk = true ∧ s.env.txReady = true)) → s.env.script = [] →
    resp.length = 2 + l.toNat → responseQueue s.env.simMode s = resp ++ rest →
    ∃ t u, exec i s = .next t ∧ run (5 + (2 + l.toNat)) t = .next u ∧ u.cfg = s.cfg ∧
      CompletedWith .ok false (unpack resp l.toNat) true u ∧
      u.env = { s.env with
        wireOut := if s.env.simMode then s.env.wireOut
          else s.env.wireOut ++ readReqFrame c.board a l
        trace := s.env.trace ++ traced .t (readReqFrame c.board a l) ++ traced .r resp
        simq := if s.env.simMode then rest else s.env.simq
        rxq := if s.env.simMode then s.env.rxq else rest
        doneCount := s.env.doneCount + 1 }

/-- R165, R168: a read whose reply is short by one byte or more ends with ERR_SHORT_READ and no value, in
both modes; the bytes that came stay taken. Schedule: SRFE moves until the response queue is used up, then
the response source times out. -/
def Obligations.ShortReadNetEffect : Prop :=
  ∀ (s : State) (i : Instr) (c : CmdFields) (a : Byte) (l : BitVec 2) (resp : List Byte),
    s.eng.phase = .idle → ReadsRegister s.cfg i c a l → l ≠ 0 → c.board.toNat < s.cfg.nboards →
    (s.env.simMode = true ∨ (s.env.linkOk = true ∧ s.env.txReady = true)) →
    resp.length < 2 + l.toNat → responseQueue s.env.simMode s = resp →
    s.env.script = List.replicate (5 + resp.length) EnvEvent.turn ++
      [if s.env.simMode then EnvEvent.simTimeout else EnvEvent.rxTimeout] →
    ∃ t u, exec i s = .next t ∧ run (5 + resp.length + 1) t = .next u ∧ u.cfg = s.cfg ∧
      CompletedWith .errShortRead false 0 false u ∧
      u.env = { s.env with
        wireOut := if s.env.simMode then s.env.wireOut
          else s.env.wireOut ++ readReqFrame c.board a l
        trace := s.env.trace ++ traced .t (readReqFrame c.board a l) ++ traced .r resp
        simq := if s.env.simMode then [] else s.env.simq
        rxq := if s.env.simMode then s.env.rxq else []
        doneCount := s.env.doneCount + 1, script := [] }

/-- R183: SET and the WRREG of the register it looks up go through the same states but for CMD_OP, for any
number of steps of any environment. -/
def Obligations.SetEqualsWrregAfterLookup : Prop :=
  ∀ (s : State) (c d : CmdFields) (n : Nat), s.eng.phase = .idle →
    catLookup s.cfg c.rsel = some (d.addr, d.len) → d.board = c.board → d.wdata = c.wdata →
    ∃ t u, exec (.set c) s = .next t ∧ exec (.wrreg d) s = .next u ∧ agreeButOp (run n t) (run n u)

/-- R185: GET and the RDREG of the register it looks up go through the same states but for CMD_OP and the unused
SHR, which `Accept` loads with the ignored operand `wdata` (R22), for any number of steps of any environment;
with the same `wdata` they differ in CMD_OP alone. -/
def Obligations.GetEqualsRdregAfterLookup : Prop :=
  ∀ (s : State) (c d : CmdFields) (n : Nat), s.eng.phase = .idle →
    catLookup s.cfg c.rsel = some (d.addr, d.len) → d.board = c.board →
    ∃ t u, exec (.get c) s = .next t ∧ exec (.rdreg d) s = .next u ∧
      agreeButOpAndShr (run n t) (run n u) ∧
      (d.wdata = c.wdata → agreeButOp (run n t) (run n u))

/-! ### Frames and replies -/

/-- R37, R93, R94, R129, R131; that the frame row runs the step that starts its frame is the model's choice
(log 5). The header of the frame SRFE stands ready to send goes out, to a transport that accepts or in a
simulated command: traced in both modes, on the wire in real mode only. Covers WRFRAME1, WRFRAME2, WRFRAME3,
RDREQ1, RDREQ2, RDREQ3. -/
def Obligations.FrameStartsWithItsHeader : Prop :=
  ∀ (s : State) (i : Instr) (header : Byte) (rest : List Byte), encode i = .frame (header :: rest) →
    pendingFrame s = some (header :: rest) → (s.eng.cmdSim = true ∨ s.env.txReady = true) →
    exec i s = .next { s with
      eng := { s.eng with txi := 1 }
      env := { s.env with
        wireOut := if s.eng.cmdSim then s.env.wireOut else s.env.wireOut ++ [header]
        trace := s.env.trace ++ traced .t [header] } }

/-- R93, R94, R128, R131; that the frame row runs the step that starts its frame is the model's choice (log 5).
The frame SRFE stands ready to send, once started, goes out whole: traced in both modes, on the wire in real
mode only; CKS is left holding the checksum, TXI the last index, and SHR has lost the data bytes of a write; a
simulated write completes with ACK = 1, and everything else goes on to phase RX. Schedule: SRFE moves at every
step. Covers WRFRAME1, WRFRAME2, WRFRAME3, RDREQ1, RDREQ2, RDREQ3. -/
def Obligations.FrameGoesOutWhole : Prop :=
  ∀ (s : State) (i : Instr) (bytes : List Byte), encode i = .frame bytes →
    s.eng.phase = .tx → s.eng.txi = 0 → s.eng.cks = 0 →
    (s.eng.cmdSim = true ∨ s.env.txReady = true) → s.env.script = [] →
    ((isWriteKind s.eng.cmdOp = true ∧
        bytes = writeFrame s.eng.cmdBoard s.eng.cmdAddr s.eng.cmdLen s.eng.shr) ∨
      (isReadKind s.eng.cmdOp = true ∧
        bytes = readReqFrame s.eng.cmdBoard s.eng.cmdAddr s.eng.cmdLen)) →
    ∃ t u, exec i s = .next t ∧ run (bytes.length - 1) t = .next u ∧ u.cfg = s.cfg ∧
      u.eng = (if isWriteKind s.eng.cmdOp && s.eng.cmdSim then
          { s.eng with
            shr := u.eng.shr, cks := checksum bytes.dropLast, txi := BitVec.ofNat 3 (bytes.length - 1)
            phase := .idle, status := .ok, ack := true, rdata := 0, rvalid := false }
        else
          { s.eng with
            shr := u.eng.shr, cks := checksum bytes.dropLast, txi := BitVec.ofNat 3 (bytes.length - 1)
            phase := .rx }) ∧
      u.eng.shr = (if isWriteKind s.eng.cmdOp then s.eng.shr >>> (8 * s.eng.cmdLen.toNat)
        else s.eng.shr) ∧
      u.env = { s.env with
        wireOut := if s.eng.cmdSim then s.env.wireOut else s.env.wireOut ++ bytes
        trace := s.env.trace ++ traced .t bytes
        doneCount := if isWriteKind s.eng.cmdOp && s.eng.cmdSim then s.env.doneCount + 1
          else s.env.doneCount }

/-- R7, R128, R132; that a frame row runs the first of its TxSteps is the model's choice (log 5). Running the
frame SRFE stands ready to send is SRFE's own step; and while its bytes go out, one a step in index order, SRFE
stays in phase TX with TXI counting them and does nothing else. -/
def Obligations.FrameIsItsTxSteps : Prop :=
  ∀ (s : State) (i : Instr) (bytes : List Byte), encode i = .frame bytes → pendingFrame s = some bytes →
    s.env.script = [] →
    exec i s = step s ∧
      ((s.eng.cmdSim = true ∨ s.env.txReady = true) → ∀ k, k < bytes.length →
        ∃ t, run k s = .next t ∧ t.eng.phase = .tx ∧ t.eng.txi = BitVec.ofNat 3 k ∧
          t.env = { s.env with
            wireOut := if s.eng.cmdSim then s.env.wireOut else s.env.wireOut ++ bytes.take k
            trace := s.env.trace ++ traced .t (bytes.take k) })

/-- The model's choice (log 5), from R37, R104 and R129: bytes that are not the frame SRFE stands ready to
send do not go out, nor does any frame of a real command while the transport does not accept; nothing changes. -/
def Obligations.OtherFramesDoNotGoOut : Prop :=
  ∀ (s : State) (i : Instr) (bytes : List Byte), encode i = .frame bytes →
    (pendingFrame s ≠ some bytes ∨ (s.eng.cmdSim = false ∧ s.env.txReady = false)) → exec i s = .next s

/-- R95, R133; that the reply row lets the bytes come in and runs the first RxStep is the model's choice (log 6).
The acknowledgment reply to a real write, nothing else pending: its first byte is taken and traced, and, where
SRFE moves next, the second; ACKOK stays as it is and SRFE goes on to the drain. -/
def Obligations.AcknowledgmentIsTaken : Prop :=
  ∀ s : State, s.eng.phase = .rx → isWriteKind s.eng.cmdOp = true → s.eng.cmdSim = false →
    s.eng.rxi = 0 → s.env.rxq = [] →
    ∃ t, exec .ackreply s = .next t ∧
      t = { s with
        eng := { s.eng with rxi := 1 }
        env := { s.env with rxq := [0x41], trace := s.env.trace ++ traced .r [0x41] } } ∧
      (s.env.script = [] → step t = .next { s with
        eng := { s.eng with rxi := 2, phase := .drain }
        env := { s.env with trace := s.env.trace ++ traced .r [0x41, 0x41] } })

/-- R96, R133, R164; that the reply row lets the bytes come in and runs the first RxStep is the model's choice
(log 6). A read reply of the expected length, nothing else pending: its first byte is taken, traced and
skipped, and, where SRFE moves next, the others complete the read: RDATA is the value of the data bytes. In both
modes; covers RDREPLY1, RDREPLY2, RDREPLY3. -/
def Obligations.ReadReplyCompletesTheRead : Prop :=
  ∀ (s : State) (i : Instr) (first : Byte) (rest : List Byte), encode i = .reply (first :: rest) →
    s.eng.phase = .rx → isReadKind s.eng.cmdOp = true → s.eng.cmdLen ≠ 0 →
    rest.length = 1 + s.eng.cmdLen.toNat → s.eng.rxi = 0 → s.eng.racc = 0 →
    responseQueue s.eng.cmdSim s = [] →
    ∃ t, exec i s = .next t ∧
      t = { s with
        eng := { s.eng with rxi := 1 }
        env := { s.env with
          simq := if s.eng.cmdSim then rest else s.env.simq
          rxq := if s.eng.cmdSim then s.env.rxq else rest
          trace := s.env.trace ++ traced .r [first] } } ∧
      (s.env.script = [] → run (1 + s.eng.cmdLen.toNat) t = .next { s with
        eng := { s.eng with
          racc := unpack (first :: rest) s.eng.cmdLen.toNat, rxi := s.eng.cmdLen.setWidth 3 + 2
          phase := .idle, status := .ok, ack := false
          rdata := unpack (first :: rest) s.eng.cmdLen.toNat, rvalid := true }
        env := { s.env with
          trace := s.env.trace ++ traced .r (first :: rest), doneCount := s.env.doneCount + 1 } })

/-- R105, R166; that the reply row lets the bytes come in and runs the first RxStep is the model's choice (log 6).
The first and the last byte of a read reply decide nothing: two replies with the same data bytes, once taken,
leave the same engine and the same environment but for the trace, and so does their first byte alone in the
engine. Schedule: SRFE moves at every step. -/
def Obligations.ReplyEndBytesDecideNothing : Prop :=
  ∀ (s : State) (f l f' l' : Byte) (data : List Byte) (i j : Instr),
    encode i = .reply (f :: (data ++ [l])) → encode j = .reply (f' :: (data ++ [l'])) →
    s.eng.phase = .rx → isReadKind s.eng.cmdOp = true → data.length = s.eng.cmdLen.toNat →
    s.eng.rxi = 0 → responseQueue s.eng.cmdSim s = [] → s.env.script = [] →
    ∃ t u t' u', exec i s = .next t ∧ exec j s = .next u ∧ t.eng = u.eng ∧
      run (1 + s.eng.cmdLen.toNat) t = .next t' ∧ run (1 + s.eng.cmdLen.toNat) u = .next u' ∧
      t'.eng = u'.eng ∧ t'.cfg = u'.cfg ∧ t'.env = { u'.env with trace := t'.env.trace }

/-- R38, R43, R136: outside phase RX a reply is not taken. It joins the pending input, and SRFE does not
change. The queue it joins while a simulated command runs is the model's choice (log 6). -/
def Obligations.ReplyOutsideRxStaysPending : Prop :=
  ∀ (s : State) (i : Instr) (bytes : List Byte), encode i = .reply bytes → s.eng.phase ≠ .rx →
    exec i s = .next { s with env := { s.env with
      rxq := if busy s && s.eng.cmdSim then s.env.rxq else s.env.rxq ++ bytes
      simq := if busy s && s.eng.cmdSim then s.env.simq ++ bytes else s.env.simq } }

/-! ### Steps -/

/-- R35, R129: a step runs the decoded instruction: the command at the port of an idle SRFE, whether the
environment has nothing scheduled or gives SRFE its turn, and the frame or reply that the environment offers
next. The model's choices here: the schedule, whose head is used up (log 1); that a taken command leaves the
port (log 2); that a frame or a reply is one event, whose step starts it (logs 5 and 6). -/
def Obligations.StepRunsTheDecodedInstruction : Prop :=
  (∀ (s : State) (w : CmdWord) (i : Instr), s.eng.phase = .idle → s.env.script = [] →
    s.env.cmdPort = some w → decode (.cmd w) = .ok i →
    step s = exec i { s with env := { s.env with cmdPort := none } }) ∧
  (∀ (s : State) (w : CmdWord) (rest : List EnvEvent) (i : Instr), s.eng.phase = .idle →
    s.env.script = .turn :: rest → s.env.cmdPort = some w → decode (.cmd w) = .ok i →
    step s = exec i { s with env := { s.env with cmdPort := none, script := rest } }) ∧
  (∀ (s : State) (bytes : List Byte) (rest : List EnvEvent) (i : Instr),
    s.env.script = .frame bytes :: rest → decode (.frame bytes) = .ok i →
    step s = exec i { s with env := { s.env with script := rest } }) ∧
  (∀ (s : State) (bytes : List Byte) (rest : List EnvEvent) (i : Instr),
    s.env.script = .reply bytes :: rest → decode (.reply bytes) = .ok i →
    step s = exec i { s with env := { s.env with script := rest } })

/-- R44, R260: the `Reset` step, from any phase: every element of R44's table at its value, no pulse, nothing
outside SRFE changed, and SRFE ready for a command. -/
def Obligations.ResetStepClearsTheEngine : Prop :=
  ∀ (s : State) (rest : List EnvEvent), s.env.script = .reset :: rest →
    ∃ t, step s = .next t ∧ t.cfg = s.cfg ∧ t.env = { s.env with script := rest } ∧
      t.eng.phase = .idle ∧ (opCode t.eng.cmdOp).toNat = 0 ∧ t.eng.cmdBoard = 0 ∧ t.eng.cmdAddr = 0 ∧
      t.eng.cmdLen = 0 ∧ t.eng.cmdSim = false ∧ t.eng.shr = 0 ∧ t.eng.cks = 0 ∧ t.eng.racc = 0 ∧
      t.eng.txi = 0 ∧ t.eng.rxi = 0 ∧ t.eng.ackok = false ∧ t.eng.status = .ok ∧ t.eng.ack = false ∧
      t.eng.rdata = 0 ∧ t.eng.rvalid = false ∧ cmdReady t = true

/-- R131: one TxStep: the byte of R127 goes to the trace and, in real mode, to port TX; CKS, SHR and TXI move
as the rule says; after the last byte a simulated write completes and everything else goes to phase RX. -/
def Obligations.TxStepSendsOneByte : Prop :=
  ∀ (s : State) (b : Byte), s.eng.phase = .tx → s.env.script = [] →
    (s.eng.cmdSim = true ∨ s.env.txReady = true) → txByteAt s.eng s.eng.txi.toNat = some b →
    ∃ t, step s = .next t ∧ t.cfg = s.cfg ∧
      t.env = { s.env with
        trace := s.env.trace ++ [{ dir := .t, data := b }]
        wireOut := if s.eng.cmdSim then s.env.wireOut else s.env.wireOut ++ [b]
        doneCount := t.env.doneCount } ∧
      t.eng.cks = (if 1 ≤ s.eng.txi.toNat ∧ s.eng.txi.toNat < frameLen s.eng.cmdOp s.eng.cmdLen - 1
        then s.eng.cks + b else s.eng.cks) ∧
      t.eng.shr = (if isWriteKind s.eng.cmdOp = true ∧ 3 ≤ s.eng.txi.toNat ∧
          s.eng.txi.toNat ≤ 2 + s.eng.cmdLen.toNat then s.eng.shr >>> 8 else s.eng.shr) ∧
      if s.eng.txi.toNat < frameLen s.eng.cmdOp s.eng.cmdLen - 1 then
        t.eng = { s.eng with cks := t.eng.cks, shr := t.eng.shr, txi := s.eng.txi + 1 } ∧
          t.env.doneCount = s.env.doneCount
      else if isWriteKind s.eng.cmdOp = true ∧ s.eng.cmdSim = true then
        t.eng = { s.eng with
          cks := t.eng.cks, shr := t.eng.shr, phase := .idle
          status := .ok, ack := true, rdata := 0, rvalid := false } ∧
          t.env.doneCount = s.env.doneCount + 1
      else
        t.eng = { s.eng with cks := t.eng.cks, shr := t.eng.shr, phase := .rx } ∧
          t.env.doneCount = s.env.doneCount

/-- R133: one RxStep takes the oldest byte of the response source, traces it, and counts it: a write compares
it, a read adds a data byte at its byte position and completes on its last byte. -/
def Obligations.RxStepTakesTheOldestByte : Prop :=
  ∀ (s : State) (b : Byte) (rest : List Byte), s.eng.phase = .rx → s.env.script = [] →
    responseQueue s.eng.cmdSim s = b :: rest →
    ∃ t, step s = .next t ∧ t.cfg = s.cfg ∧
      t.env = { s.env with
        simq := if s.eng.cmdSim then rest else s.env.simq
        rxq := if s.eng.cmdSim then s.env.rxq else rest
        trace := s.env.trace ++ [{ dir := .r, data := b }], doneCount := t.env.doneCount } ∧
      t.eng.rxi = s.eng.rxi + 1 ∧
      if isWriteKind s.eng.cmdOp = true then
        t.eng = { s.eng with
          rxi := t.eng.rxi, ackok := s.eng.ackok && b == 0x41
          phase := if s.eng.rxi.toNat + 1 = 2 then .drain else .rx } ∧
          t.env.doneCount = s.env.doneCount
      else
        t.eng.racc = (if 1 ≤ s.eng.rxi.toNat ∧ s.eng.rxi.toNat ≤ s.eng.cmdLen.toNat then
            s.eng.racc + (b.setWidth 24 <<< (8 * (s.eng.rxi.toNat - 1))) else s.eng.racc) ∧
        if s.eng.rxi.toNat + 1 = 2 + s.eng.cmdLen.toNat then
          t.eng = { s.eng with
            rxi := t.eng.rxi, racc := t.eng.racc, phase := .idle
            status := .ok, ack := false, rdata := t.eng.racc, rvalid := true } ∧
            t.env.doneCount = s.env.doneCount + 1
        else
          t.eng = { s.eng with rxi := t.eng.rxi, racc := t.eng.racc } ∧
            t.env.doneCount = s.env.doneCount

/-- R134: a timeout on the port in use: a write goes on to the drain unacknowledged, a read ends with
ERR_SHORT_READ. -/
def Obligations.TimeoutEndsTheReply : Prop :=
  ∀ (s : State) (e : EnvEvent) (rest : List EnvEvent), s.eng.phase = .rx → s.env.script = e :: rest →
    ((e = .rxTimeout ∧ s.eng.cmdSim = false) ∨ (e = .simTimeout ∧ s.eng.cmdSim = true)) →
    step s = .next
      (if isWriteKind s.eng.cmdOp then
        { s with
          eng := { s.eng with ackok := false, phase := .drain }
          env := { s.env with script := rest } }
      else
        { s with
          eng := { s.eng with
            phase := .idle, status := .errShortRead, ack := false, rdata := 0, rvalid := false }
          env := { s.env with script := rest, doneCount := s.env.doneCount + 1 } })

/-- R135: the drain discards the pending input of a command in real mode and completes with OK, and with
ACKOK for a write. -/
def Obligations.DrainCompletesTheCommand : Prop :=
  ∀ s : State, s.eng.phase = .drain → s.env.script = [] →
    step s = .next { s with
      eng := { s.eng with
        phase := .idle, status := .ok, rdata := 0, rvalid := false
        ack := if s.eng.cmdOp = .flush then false else s.eng.ackok }
      env := { s.env with
        rxq := if s.eng.cmdSim then s.env.rxq else []
        flushCount := if s.eng.cmdSim then s.env.flushCount else s.env.flushCount + 1
        doneCount := s.env.doneCount + 1 } }

/-- R38, R40, R136: events outside their phase, or on the port not in use, change nothing in SRFE: a timeout
is ignored, and an arriving byte only joins its queue. -/
def Obligations.EventsOutsideTheirPhaseAreIgnored : Prop :=
  (∀ (s : State) (rest : List EnvEvent), s.env.script = .rxTimeout :: rest → rxReady s = false →
    step s = .next { s with env := { s.env with script := rest } }) ∧
  (∀ (s : State) (rest : List EnvEvent), s.env.script = .simTimeout :: rest → simReady s = false →
    step s = .next { s with env := { s.env with script := rest } }) ∧
  (∀ (s : State) (b : Byte) (rest : List EnvEvent), s.env.script = .arrive b :: rest →
    step s = .next { s with env := { s.env with script := rest, rxq := s.env.rxq ++ [b] } }) ∧
  (∀ (s : State) (b : Byte) (rest : List EnvEvent), s.env.script = .canned b :: rest →
    step s = .next { s with env := { s.env with script := rest, simq := s.env.simq ++ [b] } }) ∧
  (∀ s : State, s.eng.phase ≠ .rx → takeByte s = none)

/-- R138: the phase transitions of every step, but for a `Reset`; a phase may also stay while SRFE waits or
the environment moves. -/
def Obligations.PhaseTransitions : Prop :=
  ∀ s t : State, s.env.script.head? ≠ some .reset → step s = .next t →
    match s.eng.phase with
    | .idle => t.eng.phase = .idle ∨ t.eng.phase = .tx ∨ t.eng.phase = .drain
    | .tx => t.eng.phase = .tx ∨ t.eng.phase = .rx ∨ t.eng.phase = .idle
    | .rx => t.eng.phase = .rx ∨ t.eng.phase = .drain ∨ t.eng.phase = .idle
    | .drain => t.eng.phase = .drain ∨ t.eng.phase = .idle

/-- R28 to R31, R36: the result registers are written only with a `done` pulse or by reset, and a `done` pulse
leaves SRFE idle. -/
def Obligations.ResultsChangeOnlyAtDoneOrReset : Prop :=
  ∀ s t : State, s.env.script.head? ≠ some .reset → step s = .next t →
    (t.env.doneCount = s.env.doneCount ∧ t.eng.status = s.eng.status ∧ t.eng.ack = s.eng.ack ∧
      t.eng.rdata = s.eng.rdata ∧ t.eng.rvalid = s.eng.rvalid) ∨
    (t.env.doneCount = s.env.doneCount + 1 ∧ t.eng.phase = .idle)

/-- R142, R162, R196: while a simulated command runs, SRFE sends nothing, flushes nothing and takes nothing
from the pending input, whatever the environment does. -/
def Obligations.SimulatedCommandLeavesTheTransportAlone : Prop :=
  ∀ s t : State, busy s = true → s.eng.cmdSim = true → step s = .next t →
    t.env.wireOut = s.env.wireOut ∧ t.env.flushCount = s.env.flushCount ∧
      ∃ arrived, t.env.rxq = s.env.rxq ++ arrived

/-- R34, R280: while a command runs, SRFE's own step does not depend on the pins `sim_mode` and `link_ok`. -/
def Obligations.PinsAreReadOnlyAtAccept : Prop :=
  ∀ (s t : State) (v w : Bool), busy s = true → s.env.script = [] → step s = .next t →
    step (setSimMode v (setLinkOk w s)) = .next (setSimMode v (setLinkOk w t))

/-- R78 (b), R75: bytes handed to the transport and trace pulses are never taken back or reordered. -/
def Obligations.WireAndTraceOnlyGrow : Prop :=
  ∀ s t : State, step s = .next t →
    (∃ out, t.env.wireOut = s.env.wireOut ++ out) ∧ ∃ shown, t.env.trace = s.env.trace ++ shown

/-- R8, R41, R131, R133: one step moves at most one byte: none, one frame byte (on the wire too in real mode),
or one response byte. -/
def Obligations.OneStepMovesAtMostOneByte : Prop :=
  ∀ s t : State, step s = .next t →
    (t.env.trace = s.env.trace ∧ t.env.wireOut = s.env.wireOut) ∨
    (∃ b, t.env.trace = s.env.trace ++ [{ dir := .t, data := b }] ∧
      t.env.wireOut = if s.eng.cmdSim then s.env.wireOut else s.env.wireOut ++ [b]) ∨
    (∃ b, t.env.trace = s.env.trace ++ [{ dir := .r, data := b }] ∧ t.env.wireOut = s.env.wireOut)

/-- R37, R129: a byte goes to port TX only in phase TX of a real command, and only when the transport accepts,
whatever the environment does. -/
def Obligations.BytesGoOutOnlyWhenAccepted : Prop :=
  ∀ s t : State, step s = .next t → t.env.wireOut ≠ s.env.wireOut →
    txValid s = true ∧ s.env.txReady = true

/-- R265: over any run from a clean launch, `sim_mode`, `link_ok`, NBOARDS and the catalog stay as they are. -/
def Obligations.CleanLaunchHoldsThePins : Prop :=
  ∀ (canned : List Byte) (s t : State) (n : Nat), CleanLaunch canned s → run n s = .next t →
    t.env.simMode = s.env.simMode ∧ t.env.linkOk = s.env.linkOk ∧ t.cfg = s.cfg

/-- R266: a run of `k` commands that is over stays over as long as the host presents no further command, while
bytes may still arrive, whatever else the environment does. -/
def Obligations.RunStaysOver : Prop :=
  ∀ (k n : Nat) (s t u : State), RunOver k s t → t.env.cmdPort = none →
    (∀ w, EnvEvent.command w ∉ t.env.script) → run n t = .next u → RunOver k s u

/-- R42, R46, R82: no step changes the catalog or the number of boards. -/
def Obligations.ConfigurationNeverChanges : Prop :=
  ∀ s t : State, step s = .next t → t.cfg = s.cfg

/-- R274, R76; that a waiting turn is a step which answers the same state is the model's choice (log 17; 93 U2
and U30 call the endless wait stuck). SRFE waits without limit for a response byte or a timeout, and for the transport to accept. -/
def Obligations.SrfeWaitsWithoutLimit : Prop :=
  (∀ (s : State) (n : Nat), s.eng.phase = .rx → s.env.script = [] →
    responseQueue s.eng.cmdSim s = [] → run n s = .next s) ∧
  (∀ (s : State) (n : Nat), s.eng.phase = .tx → s.env.script = [] → s.eng.cmdSim = false →
    s.env.txReady = false → run n s = .next s)

/-! ### Invariants -/

/-- R45: every step keeps the invariants (a) to (g) with what they rest on, whatever the environment does. -/
def Obligations.EveryStepKeepsTheInvariant : Prop :=
  ∀ s t : State, Invariant s → step s = .next t → Invariant t

/-- R44, R45: the state after reset meets the invariant. -/
def Obligations.ResetStateMeetsTheInvariant : Prop := Invariant State.reset

/-- R139: every step function is total on states that satisfy the invariants of R45: no step faults or is
refused, and none has two outcomes. -/
def Obligations.InvariantStatesNeverStop : Prop :=
  ∀ s : State, InvR45 s → ∃ t, step s = .next t ∧ ∀ u, step s = .next u → u = t
end

