-- ==== Sys2Proof/Laws/Codec.lean ====
section
/-! SUPPORT. The small lemmas of the decoder, the encoder and the datapath functions. -/

namespace Sys2Proof

open Sys2Proof.Machine

@[simp] theorem opOfCode_opCode (op : Op) : opOfCode (opCode op) = op := by cases op <;> rfl

@[simp] theorem opCode_opOfCode (code : BitVec 3) : opCode (opOfCode code) = code := by
  revert code; decide

/-- Every bit of a command word is a bit of one field (R100). -/
theorem encodeCmd_getLsbD (op : Op) (c : CmdFields) (i : Nat) :
    (encodeCmd op c).getLsbD i =
      if i < 32 then c.wdata.getLsbD i
      else if i < 40 then c.rsel.getLsbD (i - 32)
      else if i < 42 then c.len.getLsbD (i - 40)
      else if i < 50 then c.addr.getLsbD (i - 42)
      else if i < 58 then c.board.getLsbD (i - 50)
      else if i < 61 then (opCode op).getLsbD (i - 58)
      else false := by
  unfold encodeCmd
  simp only [BitVec.getLsbD_or, BitVec.getLsbD_shiftLeft, BitVec.getLsbD_setWidth]
  grind

theorem encodeCmd_op (op : Op) (c : CmdFields) :
    (encodeCmd op c).extractLsb' 58 3 = opCode op := by
  ext i hi
  simp only [BitVec.getElem_extractLsb', encodeCmd_getLsbD]
  grind

theorem cmdFieldsOf_encodeCmd (op : Op) (c : CmdFields) : cmdFieldsOf (encodeCmd op c) = c := by
  cases c
  simp only [cmdFieldsOf, CmdFields.mk.injEq]
  refine ⟨?_, ?_, ?_, ?_, ?_⟩ <;> ext i hi <;>
    simp only [BitVec.getElem_extractLsb', encodeCmd_getLsbD] <;> grind

theorem encodeCmd_cmdFieldsOf (w : CmdWord) :
    encodeCmd (opOfCode (w.extractLsb' 58 3)) (cmdFieldsOf w) = w := by
  apply BitVec.eq_of_getLsbD_eq
  intro i hi
  rw [encodeCmd_getLsbD, opCode_opOfCode]
  simp only [cmdFieldsOf, BitVec.getLsbD_extractLsb']
  grind

theorem encode_cmdInstr (op : Op) (c : CmdFields) : encode (cmdInstr op c) = .cmd (encodeCmd op c) := by
  cases op <;> rfl

end Sys2Proof

namespace Sys2Proof.Machine

theorem len_cases (l : BitVec 2) : l = 0 ∨ l = 1 ∨ l = 2 ∨ l = 3 := by revert l; decide

theorem byteSum_append (g h : List Byte) : byteSum (g ++ h) = byteSum g + byteSum h := by
  induction g with
  | nil => simp [byteSum]
  | cons b g ih => simp [byteSum, ih, BitVec.add_assoc]

@[simp] theorem pack_length (v : BitVec 32) (n : Nat) : (pack v n).length = n := by
  induction n generalizing v with
  | zero => rfl
  | succ n ih => simp [pack, ih]

@[simp] theorem writeFrame_length (board addr : Byte) (len : BitVec 2) (v : BitVec 32) :
    (writeFrame board addr len v).length = 4 + len.toNat := by
  simp [writeFrame, withChecksum]; omega

@[simp] theorem readReqFrame_length (board addr : Byte) (len : BitVec 2) :
    (readReqFrame board addr len).length = 5 := by
  simp [readReqFrame, withChecksum]

theorem isReadKind_of_isWriteKind {op : Op} (h : isWriteKind op = true) : isReadKind op = false := by
  cases op <;> simp_all [isWriteKind, isReadKind]

theorem isWriteKind_of_isReadKind {op : Op} (h : isReadKind op = true) : isWriteKind op = false := by
  cases op <;> simp_all [isWriteKind, isReadKind]

end Sys2Proof.Machine
end

