-- ==== Sys2Proof/Machine/IdealBoard.lean ====
section
/-! DEFINITION. The spec's test harness `IdealBoard(s, t)` (R80): its map, what it does with a complete frame, how
it watches `wire_out` grow and makes its reply arrive, and the machine run beside it. It is no claim about a
real board, `step` never calls it and no statement rests on it (92 D31). -/

namespace Sys2Proof.Machine

/-- One stored register of the harness: the pair (len, value) at (board, addr) (R80). -/
structure BoardReg where
  board : Byte
  addr  : Byte
  len   : BitVec 2
  value : BitVec 24
  deriving DecidableEq, Repr

/-- The harness: its free bytes `s` and `t`, its map `breg`, at most one entry a register (R80), and how many
bytes of `wire_out` came before the frame it waits for. -/
structure IdealBoard where
  first : Byte
  last  : Byte
  breg  : List BoardReg
  seen  : Nat
  deriving DecidableEq, Repr

/-- The harness put beside a machine: an initially empty map, and only bytes sent from now on are watched
(R80). -/
def idealBoardStart (first last : Byte) (s : State) : IdealBoard :=
  { first := first, last := last, breg := [], seen := s.env.wireOut.length }

/-- The stored value of a register, 0 if nothing is stored (R80). -/
def boardValue (b : IdealBoard) (board addr : Byte) : BitVec 24 :=
  match b.breg.find? fun r => r.board == board && r.addr == addr with
  | some r => r.value
  | none => 0

/-- `breg(board, addr) <- (len, value)` (R80). -/
def boardStore (b : IdealBoard) (board addr : Byte) (len : BitVec 2) (value : BitVec 24) : IdealBoard :=
  { b with breg := { board := board, addr := addr, len := len, value := value } ::
      b.breg.filter fun r => !(r.board == board && r.addr == addr) }

/-- What the harness does with a complete frame: its new map, and the bytes it makes arrive, in order (R80). -/
def idealBoardStep (b : IdealBoard) (r : Request) : IdealBoard × List Byte :=
  match r with
  | .write board addr len value => (boardStore b board addr len value, [ackByte, ackByte])
  | .readReq board addr len =>
    (b, b.first :: (pack ((boardValue b board addr).setWidth 32) len.toNat ++ [b.last]))

/-- The harness after a step of the machine: when `wire_out` has grown by a complete frame with a correct
checksum and a configured board, it acts on the frame and its reply bytes `Arrive` in the pending input; while
the growth is no such frame, it waits (R75, R80; log 26). -/
def boardReact (b : IdealBoard) (s : State) : IdealBoard × State :=
  match decodeRequest s.cfg.nboards (s.env.wireOut.drop b.seen) with
  | none => (b, s)
  | some r =>
    ({ (idealBoardStep b r).1 with seen := s.env.wireOut.length }, arriveRx (idealBoardStep b r).2 s)

/-- The machine with the harness at the far end of its link. -/
structure Bench where
  board   : IdealBoard
  machine : State
  deriving DecidableEq, Repr

/-- One step of the machine, then the harness's reaction (R80). -/
def benchStep (x : Bench) : Host.Outcome Bench Fault Refusal :=
  match step x.machine with
  | .next s => .next { board := (boardReact x.board s).1, machine := (boardReact x.board s).2 }
  | .fault f => .fault f
  | .refused r => .refused r

/-- `n` steps with the harness, as the programs of 95_test_vectors.md run. -/
def benchRun : Nat → Bench → Host.Outcome Bench Fault Refusal
  | 0, x => .next x
  | n + 1, x =>
    match benchStep x with
    | .next y => benchRun n y
    | .fault f => .fault f
    | .refused r => .refused r

end Sys2Proof.Machine
end

