-- ==== Sys2Proof/Laws/IdealBoard.lean ====
section
/-! SUPPORT. What the harness of R80 can do, said once: its map, its reaction to the growth of `wire_out`, and a
step of the machine beside it. -/

namespace Sys2Proof.Machine

@[simp] theorem boardValue_start (f l : Byte) (s : State) (board addr : Byte) :
    boardValue (idealBoardStart f l s) board addr = 0 := rfl

/-- A stored value is read back. -/
@[simp] theorem boardValue_boardStore_same (b : IdealBoard) (board addr : Byte) (len : BitVec 2)
    (v : BitVec 24) : boardValue (boardStore b board addr len v) board addr = v := by
  simp [boardValue, boardStore]

/-- Storing a register leaves every other one. -/
theorem boardValue_boardStore_other (b : IdealBoard) (board addr board' addr' : Byte) (len : BitVec 2)
    (v : BitVec 24) (h : ¬ (board' = board ∧ addr' = addr)) :
    boardValue (boardStore b board addr len v) board' addr' = boardValue b board' addr' := by
  have hne : (board == board' && addr == addr') = false := by
    simp only [Bool.and_eq_false_iff, beq_eq_false_iff_ne, ne_eq]
    by_cases hb : board = board'
    · exact .inr fun ha => h ⟨hb.symm, ha.symm⟩
    · exact .inl hb
  have hf : (b.breg.filter fun r => !(r.board == board && r.addr == addr)).find?
      (fun r => r.board == board' && r.addr == addr') =
        b.breg.find? fun r => r.board == board' && r.addr == addr' := by
    rw [List.find?_filter]
    congr 1
    funext r
    cases hr : r.board == board' && r.addr == addr'
    · simp
    · simp only [Bool.and_eq_true, beq_iff_eq] at hr
      obtain ⟨rfl, rfl⟩ := hr
      simpa using not_and_or.1 h
  simp only [boardValue, boardStore, List.find?_cons, hne, hf]

/-- The harness waits, or acts on one complete frame and its reply joins the pending input (R80). -/
theorem boardReact_cases (b : IdealBoard) (s : State) :
    (decodeRequest s.cfg.nboards (s.env.wireOut.drop b.seen) = none ∧ boardReact b s = (b, s)) ∨
      ∃ r, decodeRequest s.cfg.nboards (s.env.wireOut.drop b.seen) = some r ∧
        boardReact b s = ({ (idealBoardStep b r).1 with seen := s.env.wireOut.length },
          arriveRx (idealBoardStep b r).2 s) := by
  unfold boardReact
  split
  · rename_i h; exact .inl ⟨h, rfl⟩
  · rename_i r h; exact .inr ⟨r, h, rfl⟩

/-- The harness changes nothing of SRFE. -/
theorem boardReact_eng (b : IdealBoard) (s : State) : (boardReact b s).2.eng = s.eng := by
  rcases boardReact_cases b s with ⟨-, h⟩ | ⟨r, -, h⟩
  · rw [h]
  · rw [h]; rfl

/-- A step beside the harness is a step of the machine, then the harness's reaction. -/
theorem benchStep_next {x y : Bench} (h : benchStep x = .next y) :
    ∃ s, step x.machine = .next s ∧ y.board = (boardReact x.board s).1 ∧
      y.machine = (boardReact x.board s).2 := by
  unfold benchStep at h
  split at h
  · rename_i s hs; cases h; exact ⟨s, hs, rfl, rfl⟩
  · cases h
  · cases h

end Sys2Proof.Machine
end

