-- ==== Sys2Proof/Laws/State.lean ====
section
/-! SUPPORT. What each update of the state leaves in each field: one lemma per field per update, true by
rfl, for simp, so that no later proof unfolds a record update. -/

namespace Sys2Proof.Machine

variable (s : State)

/-! `traceByte` -/

@[simp] theorem traceByte_cfg (d : TraceDir) (b : Byte) : (traceByte d b s).cfg = s.cfg := rfl
@[simp] theorem traceByte_eng (d : TraceDir) (b : Byte) : (traceByte d b s).eng = s.eng := rfl
@[simp] theorem traceByte_simMode (d : TraceDir) (b : Byte) : (traceByte d b s).env.simMode = s.env.simMode := rfl
@[simp] theorem traceByte_linkOk (d : TraceDir) (b : Byte) : (traceByte d b s).env.linkOk = s.env.linkOk := rfl
@[simp] theorem traceByte_cmdPort (d : TraceDir) (b : Byte) : (traceByte d b s).env.cmdPort = s.env.cmdPort := rfl
@[simp] theorem traceByte_txReady (d : TraceDir) (b : Byte) : (traceByte d b s).env.txReady = s.env.txReady := rfl
@[simp] theorem traceByte_wireOut (d : TraceDir) (b : Byte) : (traceByte d b s).env.wireOut = s.env.wireOut := rfl
@[simp] theorem traceByte_rxq (d : TraceDir) (b : Byte) : (traceByte d b s).env.rxq = s.env.rxq := rfl
@[simp] theorem traceByte_simq (d : TraceDir) (b : Byte) : (traceByte d b s).env.simq = s.env.simq := rfl
@[simp] theorem traceByte_trace (d : TraceDir) (b : Byte) : (traceByte d b s).env.trace = s.env.trace ++ [{ dir := d, data := b }] := rfl
@[simp] theorem traceByte_doneCount (d : TraceDir) (b : Byte) : (traceByte d b s).env.doneCount = s.env.doneCount := rfl
@[simp] theorem traceByte_flushCount (d : TraceDir) (b : Byte) : (traceByte d b s).env.flushCount = s.env.flushCount := rfl
@[simp] theorem traceByte_script (d : TraceDir) (b : Byte) : (traceByte d b s).env.script = s.env.script := rfl

/-! `txByte` -/

@[simp] theorem txByte_cfg (b : Byte) : (txByte b s).cfg = s.cfg := rfl
@[simp] theorem txByte_eng (b : Byte) : (txByte b s).eng = s.eng := rfl
@[simp] theorem txByte_simMode (b : Byte) : (txByte b s).env.simMode = s.env.simMode := rfl
@[simp] theorem txByte_linkOk (b : Byte) : (txByte b s).env.linkOk = s.env.linkOk := rfl
@[simp] theorem txByte_cmdPort (b : Byte) : (txByte b s).env.cmdPort = s.env.cmdPort := rfl
@[simp] theorem txByte_txReady (b : Byte) : (txByte b s).env.txReady = s.env.txReady := rfl
@[simp] theorem txByte_wireOut (b : Byte) : (txByte b s).env.wireOut = s.env.wireOut ++ [b] := rfl
@[simp] theorem txByte_rxq (b : Byte) : (txByte b s).env.rxq = s.env.rxq := rfl
@[simp] theorem txByte_simq (b : Byte) : (txByte b s).env.simq = s.env.simq := rfl
@[simp] theorem txByte_trace (b : Byte) : (txByte b s).env.trace = s.env.trace := rfl
@[simp] theorem txByte_doneCount (b : Byte) : (txByte b s).env.doneCount = s.env.doneCount := rfl
@[simp] theorem txByte_flushCount (b : Byte) : (txByte b s).env.flushCount = s.env.flushCount := rfl
@[simp] theorem txByte_script (b : Byte) : (txByte b s).env.script = s.env.script := rfl

/-! `rxFlush` -/

@[simp] theorem rxFlush_cfg : (rxFlush s).cfg = s.cfg := rfl
@[simp] theorem rxFlush_eng : (rxFlush s).eng = s.eng := rfl
@[simp] theorem rxFlush_simMode : (rxFlush s).env.simMode = s.env.simMode := rfl
@[simp] theorem rxFlush_linkOk : (rxFlush s).env.linkOk = s.env.linkOk := rfl
@[simp] theorem rxFlush_cmdPort : (rxFlush s).env.cmdPort = s.env.cmdPort := rfl
@[simp] theorem rxFlush_txReady : (rxFlush s).env.txReady = s.env.txReady := rfl
@[simp] theorem rxFlush_wireOut : (rxFlush s).env.wireOut = s.env.wireOut := rfl
@[simp] theorem rxFlush_rxq : (rxFlush s).env.rxq = [] := rfl
@[simp] theorem rxFlush_simq : (rxFlush s).env.simq = s.env.simq := rfl
@[simp] theorem rxFlush_trace : (rxFlush s).env.trace = s.env.trace := rfl
@[simp] theorem rxFlush_doneCount : (rxFlush s).env.doneCount = s.env.doneCount := rfl
@[simp] theorem rxFlush_flushCount : (rxFlush s).env.flushCount = s.env.flushCount + 1 := rfl
@[simp] theorem rxFlush_script : (rxFlush s).env.script = s.env.script := rfl

/-! `complete` -/

@[simp] theorem complete_cfg (st : Status) (a : Bool) (d : BitVec 24) (v : Bool) : (complete st a d v s).cfg = s.cfg := rfl
@[simp] theorem complete_cmdOp (st : Status) (a : Bool) (d : BitVec 24) (v : Bool) : (complete st a d v s).eng.cmdOp = s.eng.cmdOp := rfl
@[simp] theorem complete_cmdBoard (st : Status) (a : Bool) (d : BitVec 24) (v : Bool) : (complete st a d v s).eng.cmdBoard = s.eng.cmdBoard := rfl
@[simp] theorem complete_cmdAddr (st : Status) (a : Bool) (d : BitVec 24) (v : Bool) : (complete st a d v s).eng.cmdAddr = s.eng.cmdAddr := rfl
@[simp] theorem complete_cmdLen (st : Status) (a : Bool) (d : BitVec 24) (v : Bool) : (complete st a d v s).eng.cmdLen = s.eng.cmdLen := rfl
@[simp] theorem complete_cmdSim (st : Status) (a : Bool) (d : BitVec 24) (v : Bool) : (complete st a d v s).eng.cmdSim = s.eng.cmdSim := rfl
@[simp] theorem complete_shr (st : Status) (a : Bool) (d : BitVec 24) (v : Bool) : (complete st a d v s).eng.shr = s.eng.shr := rfl
@[simp] theorem complete_cks (st : Status) (a : Bool) (d : BitVec 24) (v : Bool) : (complete st a d v s).eng.cks = s.eng.cks := rfl
@[simp] theorem complete_racc (st : Status) (a : Bool) (d : BitVec 24) (v : Bool) : (complete st a d v s).eng.racc = s.eng.racc := rfl
@[simp] theorem complete_txi (st : Status) (a : Bool) (d : BitVec 24) (v : Bool) : (complete st a d v s).eng.txi = s.eng.txi := rfl
@[simp] theorem complete_rxi (st : Status) (a : Bool) (d : BitVec 24) (v : Bool) : (complete st a d v s).eng.rxi = s.eng.rxi := rfl
@[simp] theorem complete_ackok (st : Status) (a : Bool) (d : BitVec 24) (v : Bool) : (complete st a d v s).eng.ackok = s.eng.ackok := rfl
@[simp] theorem complete_phase (st : Status) (a : Bool) (d : BitVec 24) (v : Bool) : (complete st a d v s).eng.phase = .idle := rfl
@[simp] theorem complete_status (st : Status) (a : Bool) (d : BitVec 24) (v : Bool) : (complete st a d v s).eng.status = st := rfl
@[simp] theorem complete_ack (st : Status) (a : Bool) (d : BitVec 24) (v : Bool) : (complete st a d v s).eng.ack = a := rfl
@[simp] theorem complete_rdata (st : Status) (a : Bool) (d : BitVec 24) (v : Bool) : (complete st a d v s).eng.rdata = d := rfl
@[simp] theorem complete_rvalid (st : Status) (a : Bool) (d : BitVec 24) (v : Bool) : (complete st a d v s).eng.rvalid = v := rfl
@[simp] theorem complete_simMode (st : Status) (a : Bool) (d : BitVec 24) (v : Bool) : (complete st a d v s).env.simMode = s.env.simMode := rfl
@[simp] theorem complete_linkOk (st : Status) (a : Bool) (d : BitVec 24) (v : Bool) : (complete st a d v s).env.linkOk = s.env.linkOk := rfl
@[simp] theorem complete_cmdPort (st : Status) (a : Bool) (d : BitVec 24) (v : Bool) : (complete st a d v s).env.cmdPort = s.env.cmdPort := rfl
@[simp] theorem complete_txReady (st : Status) (a : Bool) (d : BitVec 24) (v : Bool) : (complete st a d v s).env.txReady = s.env.txReady := rfl
@[simp] theorem complete_wireOut (st : Status) (a : Bool) (d : BitVec 24) (v : Bool) : (complete st a d v s).env.wireOut = s.env.wireOut := rfl
@[simp] theorem complete_rxq (st : Status) (a : Bool) (d : BitVec 24) (v : Bool) : (complete st a d v s).env.rxq = s.env.rxq := rfl
@[simp] theorem complete_simq (st : Status) (a : Bool) (d : BitVec 24) (v : Bool) : (complete st a d v s).env.simq = s.env.simq := rfl
@[simp] theorem complete_trace (st : Status) (a : Bool) (d : BitVec 24) (v : Bool) : (complete st a d v s).env.trace = s.env.trace := rfl
@[simp] theorem complete_doneCount (st : Status) (a : Bool) (d : BitVec 24) (v : Bool) : (complete st a d v s).env.doneCount = s.env.doneCount + 1 := rfl
@[simp] theorem complete_flushCount (st : Status) (a : Bool) (d : BitVec 24) (v : Bool) : (complete st a d v s).env.flushCount = s.env.flushCount := rfl
@[simp] theorem complete_script (st : Status) (a : Bool) (d : BitVec 24) (v : Bool) : (complete st a d v s).env.script = s.env.script := rfl

/-! `raise` -/

@[simp] theorem raise_cfg (st : Status) : (raise st s).cfg = s.cfg := rfl
@[simp] theorem raise_cmdOp (st : Status) : (raise st s).eng.cmdOp = s.eng.cmdOp := rfl
@[simp] theorem raise_cmdBoard (st : Status) : (raise st s).eng.cmdBoard = s.eng.cmdBoard := rfl
@[simp] theorem raise_cmdAddr (st : Status) : (raise st s).eng.cmdAddr = s.eng.cmdAddr := rfl
@[simp] theorem raise_cmdLen (st : Status) : (raise st s).eng.cmdLen = s.eng.cmdLen := rfl
@[simp] theorem raise_cmdSim (st : Status) : (raise st s).eng.cmdSim = s.eng.cmdSim := rfl
@[simp] theorem raise_shr (st : Status) : (raise st s).eng.shr = s.eng.shr := rfl
@[simp] theorem raise_cks (st : Status) : (raise st s).eng.cks = s.eng.cks := rfl
@[simp] theorem raise_racc (st : Status) : (raise st s).eng.racc = s.eng.racc := rfl
@[simp] theorem raise_txi (st : Status) : (raise st s).eng.txi = s.eng.txi := rfl
@[simp] theorem raise_rxi (st : Status) : (raise st s).eng.rxi = s.eng.rxi := rfl
@[simp] theorem raise_ackok (st : Status) : (raise st s).eng.ackok = s.eng.ackok := rfl
@[simp] theorem raise_phase (st : Status) : (raise st s).eng.phase = .idle := rfl
@[simp] theorem raise_status (st : Status) : (raise st s).eng.status = st := rfl
@[simp] theorem raise_ack (st : Status) : (raise st s).eng.ack = false := rfl
@[simp] theorem raise_rdata (st : Status) : (raise st s).eng.rdata = 0 := rfl
@[simp] theorem raise_rvalid (st : Status) : (raise st s).eng.rvalid = false := rfl
@[simp] theorem raise_simMode (st : Status) : (raise st s).env.simMode = s.env.simMode := rfl
@[simp] theorem raise_linkOk (st : Status) : (raise st s).env.linkOk = s.env.linkOk := rfl
@[simp] theorem raise_cmdPort (st : Status) : (raise st s).env.cmdPort = s.env.cmdPort := rfl
@[simp] theorem raise_txReady (st : Status) : (raise st s).env.txReady = s.env.txReady := rfl
@[simp] theorem raise_wireOut (st : Status) : (raise st s).env.wireOut = s.env.wireOut := rfl
@[simp] theorem raise_rxq (st : Status) : (raise st s).env.rxq = s.env.rxq := rfl
@[simp] theorem raise_simq (st : Status) : (raise st s).env.simq = s.env.simq := rfl
@[simp] theorem raise_trace (st : Status) : (raise st s).env.trace = s.env.trace := rfl
@[simp] theorem raise_doneCount (st : Status) : (raise st s).env.doneCount = s.env.doneCount + 1 := rfl
@[simp] theorem raise_flushCount (st : Status) : (raise st s).env.flushCount = s.env.flushCount := rfl
@[simp] theorem raise_script (st : Status) : (raise st s).env.script = s.env.script := rfl

/-! `arriveRx` -/

@[simp] theorem arriveRx_cfg (bs : List Byte) : (arriveRx bs s).cfg = s.cfg := rfl
@[simp] theorem arriveRx_eng (bs : List Byte) : (arriveRx bs s).eng = s.eng := rfl
@[simp] theorem arriveRx_simMode (bs : List Byte) : (arriveRx bs s).env.simMode = s.env.simMode := rfl
@[simp] theorem arriveRx_linkOk (bs : List Byte) : (arriveRx bs s).env.linkOk = s.env.linkOk := rfl
@[simp] theorem arriveRx_cmdPort (bs : List Byte) : (arriveRx bs s).env.cmdPort = s.env.cmdPort := rfl
@[simp] theorem arriveRx_txReady (bs : List Byte) : (arriveRx bs s).env.txReady = s.env.txReady := rfl
@[simp] theorem arriveRx_wireOut (bs : List Byte) : (arriveRx bs s).env.wireOut = s.env.wireOut := rfl
@[simp] theorem arriveRx_rxq (bs : List Byte) : (arriveRx bs s).env.rxq = s.env.rxq ++ bs := rfl
@[simp] theorem arriveRx_simq (bs : List Byte) : (arriveRx bs s).env.simq = s.env.simq := rfl
@[simp] theorem arriveRx_trace (bs : List Byte) : (arriveRx bs s).env.trace = s.env.trace := rfl
@[simp] theorem arriveRx_doneCount (bs : List Byte) : (arriveRx bs s).env.doneCount = s.env.doneCount := rfl
@[simp] theorem arriveRx_flushCount (bs : List Byte) : (arriveRx bs s).env.flushCount = s.env.flushCount := rfl
@[simp] theorem arriveRx_script (bs : List Byte) : (arriveRx bs s).env.script = s.env.script := rfl

/-! `arriveSim` -/

@[simp] theorem arriveSim_cfg (bs : List Byte) : (arriveSim bs s).cfg = s.cfg := rfl
@[simp] theorem arriveSim_eng (bs : List Byte) : (arriveSim bs s).eng = s.eng := rfl
@[simp] theorem arriveSim_simMode (bs : List Byte) : (arriveSim bs s).env.simMode = s.env.simMode := rfl
@[simp] theorem arriveSim_linkOk (bs : List Byte) : (arriveSim bs s).env.linkOk = s.env.linkOk := rfl
@[simp] theorem arriveSim_cmdPort (bs : List Byte) : (arriveSim bs s).env.cmdPort = s.env.cmdPort := rfl
@[simp] theorem arriveSim_txReady (bs : List Byte) : (arriveSim bs s).env.txReady = s.env.txReady := rfl
@[simp] theorem arriveSim_wireOut (bs : List Byte) : (arriveSim bs s).env.wireOut = s.env.wireOut := rfl
@[simp] theorem arriveSim_rxq (bs : List Byte) : (arriveSim bs s).env.rxq = s.env.rxq := rfl
@[simp] theorem arriveSim_simq (bs : List Byte) : (arriveSim bs s).env.simq = s.env.simq ++ bs := rfl
@[simp] theorem arriveSim_trace (bs : List Byte) : (arriveSim bs s).env.trace = s.env.trace := rfl
@[simp] theorem arriveSim_doneCount (bs : List Byte) : (arriveSim bs s).env.doneCount = s.env.doneCount := rfl
@[simp] theorem arriveSim_flushCount (bs : List Byte) : (arriveSim bs s).env.flushCount = s.env.flushCount := rfl
@[simp] theorem arriveSim_script (bs : List Byte) : (arriveSim bs s).env.script = s.env.script := rfl

/-! `setCmdPort` -/

@[simp] theorem setCmdPort_cfg (w : Option CmdWord) : (setCmdPort w s).cfg = s.cfg := rfl
@[simp] theorem setCmdPort_eng (w : Option CmdWord) : (setCmdPort w s).eng = s.eng := rfl
@[simp] theorem setCmdPort_simMode (w : Option CmdWord) : (setCmdPort w s).env.simMode = s.env.simMode := rfl
@[simp] theorem setCmdPort_linkOk (w : Option CmdWord) : (setCmdPort w s).env.linkOk = s.env.linkOk := rfl
@[simp] theorem setCmdPort_cmdPort (w : Option CmdWord) : (setCmdPort w s).env.cmdPort = w := rfl
@[simp] theorem setCmdPort_txReady (w : Option CmdWord) : (setCmdPort w s).env.txReady = s.env.txReady := rfl
@[simp] theorem setCmdPort_wireOut (w : Option CmdWord) : (setCmdPort w s).env.wireOut = s.env.wireOut := rfl
@[simp] theorem setCmdPort_rxq (w : Option CmdWord) : (setCmdPort w s).env.rxq = s.env.rxq := rfl
@[simp] theorem setCmdPort_simq (w : Option CmdWord) : (setCmdPort w s).env.simq = s.env.simq := rfl
@[simp] theorem setCmdPort_trace (w : Option CmdWord) : (setCmdPort w s).env.trace = s.env.trace := rfl
@[simp] theorem setCmdPort_doneCount (w : Option CmdWord) : (setCmdPort w s).env.doneCount = s.env.doneCount := rfl
@[simp] theorem setCmdPort_flushCount (w : Option CmdWord) : (setCmdPort w s).env.flushCount = s.env.flushCount := rfl
@[simp] theorem setCmdPort_script (w : Option CmdWord) : (setCmdPort w s).env.script = s.env.script := rfl

/-! `setSimMode` -/

@[simp] theorem setSimMode_cfg (v : Bool) : (setSimMode v s).cfg = s.cfg := rfl
@[simp] theorem setSimMode_eng (v : Bool) : (setSimMode v s).eng = s.eng := rfl
@[simp] theorem setSimMode_simMode (v : Bool) : (setSimMode v s).env.simMode = v := rfl
@[simp] theorem setSimMode_linkOk (v : Bool) : (setSimMode v s).env.linkOk = s.env.linkOk := rfl
@[simp] theorem setSimMode_cmdPort (v : Bool) : (setSimMode v s).env.cmdPort = s.env.cmdPort := rfl
@[simp] theorem setSimMode_txReady (v : Bool) : (setSimMode v s).env.txReady = s.env.txReady := rfl
@[simp] theorem setSimMode_wireOut (v : Bool) : (setSimMode v s).env.wireOut = s.env.wireOut := rfl
@[simp] theorem setSimMode_rxq (v : Bool) : (setSimMode v s).env.rxq = s.env.rxq := rfl
@[simp] theorem setSimMode_simq (v : Bool) : (setSimMode v s).env.simq = s.env.simq := rfl
@[simp] theorem setSimMode_trace (v : Bool) : (setSimMode v s).env.trace = s.env.trace := rfl
@[simp] theorem setSimMode_doneCount (v : Bool) : (setSimMode v s).env.doneCount = s.env.doneCount := rfl
@[simp] theorem setSimMode_flushCount (v : Bool) : (setSimMode v s).env.flushCount = s.env.flushCount := rfl
@[simp] theorem setSimMode_script (v : Bool) : (setSimMode v s).env.script = s.env.script := rfl

/-! `setLinkOk` -/

@[simp] theorem setLinkOk_cfg (v : Bool) : (setLinkOk v s).cfg = s.cfg := rfl
@[simp] theorem setLinkOk_eng (v : Bool) : (setLinkOk v s).eng = s.eng := rfl
@[simp] theorem setLinkOk_simMode (v : Bool) : (setLinkOk v s).env.simMode = s.env.simMode := rfl
@[simp] theorem setLinkOk_linkOk (v : Bool) : (setLinkOk v s).env.linkOk = v := rfl
@[simp] theorem setLinkOk_cmdPort (v : Bool) : (setLinkOk v s).env.cmdPort = s.env.cmdPort := rfl
@[simp] theorem setLinkOk_txReady (v : Bool) : (setLinkOk v s).env.txReady = s.env.txReady := rfl
@[simp] theorem setLinkOk_wireOut (v : Bool) : (setLinkOk v s).env.wireOut = s.env.wireOut := rfl
@[simp] theorem setLinkOk_rxq (v : Bool) : (setLinkOk v s).env.rxq = s.env.rxq := rfl
@[simp] theorem setLinkOk_simq (v : Bool) : (setLinkOk v s).env.simq = s.env.simq := rfl
@[simp] theorem setLinkOk_trace (v : Bool) : (setLinkOk v s).env.trace = s.env.trace := rfl
@[simp] theorem setLinkOk_doneCount (v : Bool) : (setLinkOk v s).env.doneCount = s.env.doneCount := rfl
@[simp] theorem setLinkOk_flushCount (v : Bool) : (setLinkOk v s).env.flushCount = s.env.flushCount := rfl
@[simp] theorem setLinkOk_script (v : Bool) : (setLinkOk v s).env.script = s.env.script := rfl

/-! `setTxReady` -/

@[simp] theorem setTxReady_cfg (v : Bool) : (setTxReady v s).cfg = s.cfg := rfl
@[simp] theorem setTxReady_eng (v : Bool) : (setTxReady v s).eng = s.eng := rfl
@[simp] theorem setTxReady_simMode (v : Bool) : (setTxReady v s).env.simMode = s.env.simMode := rfl
@[simp] theorem setTxReady_linkOk (v : Bool) : (setTxReady v s).env.linkOk = s.env.linkOk := rfl
@[simp] theorem setTxReady_cmdPort (v : Bool) : (setTxReady v s).env.cmdPort = s.env.cmdPort := rfl
@[simp] theorem setTxReady_txReady (v : Bool) : (setTxReady v s).env.txReady = v := rfl
@[simp] theorem setTxReady_wireOut (v : Bool) : (setTxReady v s).env.wireOut = s.env.wireOut := rfl
@[simp] theorem setTxReady_rxq (v : Bool) : (setTxReady v s).env.rxq = s.env.rxq := rfl
@[simp] theorem setTxReady_simq (v : Bool) : (setTxReady v s).env.simq = s.env.simq := rfl
@[simp] theorem setTxReady_trace (v : Bool) : (setTxReady v s).env.trace = s.env.trace := rfl
@[simp] theorem setTxReady_doneCount (v : Bool) : (setTxReady v s).env.doneCount = s.env.doneCount := rfl
@[simp] theorem setTxReady_flushCount (v : Bool) : (setTxReady v s).env.flushCount = s.env.flushCount := rfl
@[simp] theorem setTxReady_script (v : Bool) : (setTxReady v s).env.script = s.env.script := rfl

/-! `setScript` -/

@[simp] theorem setScript_cfg (es : List EnvEvent) : (setScript es s).cfg = s.cfg := rfl
@[simp] theorem setScript_eng (es : List EnvEvent) : (setScript es s).eng = s.eng := rfl
@[simp] theorem setScript_simMode (es : List EnvEvent) : (setScript es s).env.simMode = s.env.simMode := rfl
@[simp] theorem setScript_linkOk (es : List EnvEvent) : (setScript es s).env.linkOk = s.env.linkOk := rfl
@[simp] theorem setScript_cmdPort (es : List EnvEvent) : (setScript es s).env.cmdPort = s.env.cmdPort := rfl
@[simp] theorem setScript_txReady (es : List EnvEvent) : (setScript es s).env.txReady = s.env.txReady := rfl
@[simp] theorem setScript_wireOut (es : List EnvEvent) : (setScript es s).env.wireOut = s.env.wireOut := rfl
@[simp] theorem setScript_rxq (es : List EnvEvent) : (setScript es s).env.rxq = s.env.rxq := rfl
@[simp] theorem setScript_simq (es : List EnvEvent) : (setScript es s).env.simq = s.env.simq := rfl
@[simp] theorem setScript_trace (es : List EnvEvent) : (setScript es s).env.trace = s.env.trace := rfl
@[simp] theorem setScript_doneCount (es : List EnvEvent) : (setScript es s).env.doneCount = s.env.doneCount := rfl
@[simp] theorem setScript_flushCount (es : List EnvEvent) : (setScript es s).env.flushCount = s.env.flushCount := rfl
@[simp] theorem setScript_script (es : List EnvEvent) : (setScript es s).env.script = es := rfl

/-! `latchCommand` -/

@[simp] theorem latchCommand_cfg (op : Op) (c : CmdFields) : (latchCommand op c s).cfg = s.cfg := rfl
@[simp] theorem latchCommand_cmdOp (op : Op) (c : CmdFields) : (latchCommand op c s).eng.cmdOp = op := rfl
@[simp] theorem latchCommand_cmdBoard (op : Op) (c : CmdFields) : (latchCommand op c s).eng.cmdBoard = c.board := rfl
@[simp] theorem latchCommand_cmdAddr (op : Op) (c : CmdFields) : (latchCommand op c s).eng.cmdAddr = s.eng.cmdAddr := rfl
@[simp] theorem latchCommand_cmdLen (op : Op) (c : CmdFields) : (latchCommand op c s).eng.cmdLen = s.eng.cmdLen := rfl
@[simp] theorem latchCommand_cmdSim (op : Op) (c : CmdFields) : (latchCommand op c s).eng.cmdSim = s.env.simMode := rfl
@[simp] theorem latchCommand_shr (op : Op) (c : CmdFields) : (latchCommand op c s).eng.shr = s.eng.shr := rfl
@[simp] theorem latchCommand_cks (op : Op) (c : CmdFields) : (latchCommand op c s).eng.cks = s.eng.cks := rfl
@[simp] theorem latchCommand_racc (op : Op) (c : CmdFields) : (latchCommand op c s).eng.racc = s.eng.racc := rfl
@[simp] theorem latchCommand_txi (op : Op) (c : CmdFields) : (latchCommand op c s).eng.txi = s.eng.txi := rfl
@[simp] theorem latchCommand_rxi (op : Op) (c : CmdFields) : (latchCommand op c s).eng.rxi = s.eng.rxi := rfl
@[simp] theorem latchCommand_ackok (op : Op) (c : CmdFields) : (latchCommand op c s).eng.ackok = s.eng.ackok := rfl
@[simp] theorem latchCommand_phase (op : Op) (c : CmdFields) : (latchCommand op c s).eng.phase = s.eng.phase := rfl
@[simp] theorem latchCommand_status (op : Op) (c : CmdFields) : (latchCommand op c s).eng.status = s.eng.status := rfl
@[simp] theorem latchCommand_ack (op : Op) (c : CmdFields) : (latchCommand op c s).eng.ack = s.eng.ack := rfl
@[simp] theorem latchCommand_rdata (op : Op) (c : CmdFields) : (latchCommand op c s).eng.rdata = s.eng.rdata := rfl
@[simp] theorem latchCommand_rvalid (op : Op) (c : CmdFields) : (latchCommand op c s).eng.rvalid = s.eng.rvalid := rfl
@[simp] theorem latchCommand_env (op : Op) (c : CmdFields) : (latchCommand op c s).env = s.env := rfl

/-! `startCommand` -/

@[simp] theorem startCommand_cfg (op : Op) (a : Byte) (l : BitVec 2) (w : BitVec 32) : (startCommand op a l w s).cfg = s.cfg := rfl
@[simp] theorem startCommand_cmdOp (op : Op) (a : Byte) (l : BitVec 2) (w : BitVec 32) : (startCommand op a l w s).eng.cmdOp = s.eng.cmdOp := rfl
@[simp] theorem startCommand_cmdBoard (op : Op) (a : Byte) (l : BitVec 2) (w : BitVec 32) : (startCommand op a l w s).eng.cmdBoard = s.eng.cmdBoard := rfl
@[simp] theorem startCommand_cmdAddr (op : Op) (a : Byte) (l : BitVec 2) (w : BitVec 32) : (startCommand op a l w s).eng.cmdAddr = a := rfl
@[simp] theorem startCommand_cmdLen (op : Op) (a : Byte) (l : BitVec 2) (w : BitVec 32) : (startCommand op a l w s).eng.cmdLen = l := rfl
@[simp] theorem startCommand_cmdSim (op : Op) (a : Byte) (l : BitVec 2) (w : BitVec 32) : (startCommand op a l w s).eng.cmdSim = s.eng.cmdSim := rfl
@[simp] theorem startCommand_shr (op : Op) (a : Byte) (l : BitVec 2) (w : BitVec 32) : (startCommand op a l w s).eng.shr = w := rfl
@[simp] theorem startCommand_cks (op : Op) (a : Byte) (l : BitVec 2) (w : BitVec 32) : (startCommand op a l w s).eng.cks = 0 := rfl
@[simp] theorem startCommand_racc (op : Op) (a : Byte) (l : BitVec 2) (w : BitVec 32) : (startCommand op a l w s).eng.racc = 0 := rfl
@[simp] theorem startCommand_txi (op : Op) (a : Byte) (l : BitVec 2) (w : BitVec 32) : (startCommand op a l w s).eng.txi = 0 := rfl
@[simp] theorem startCommand_rxi (op : Op) (a : Byte) (l : BitVec 2) (w : BitVec 32) : (startCommand op a l w s).eng.rxi = 0 := rfl
@[simp] theorem startCommand_ackok (op : Op) (a : Byte) (l : BitVec 2) (w : BitVec 32) : (startCommand op a l w s).eng.ackok = true := rfl
@[simp] theorem startCommand_phase (op : Op) (a : Byte) (l : BitVec 2) (w : BitVec 32) : (startCommand op a l w s).eng.phase = (if op = .flush then .drain else .tx) := rfl
@[simp] theorem startCommand_status (op : Op) (a : Byte) (l : BitVec 2) (w : BitVec 32) : (startCommand op a l w s).eng.status = s.eng.status := rfl
@[simp] theorem startCommand_ack (op : Op) (a : Byte) (l : BitVec 2) (w : BitVec 32) : (startCommand op a l w s).eng.ack = s.eng.ack := rfl
@[simp] theorem startCommand_rdata (op : Op) (a : Byte) (l : BitVec 2) (w : BitVec 32) : (startCommand op a l w s).eng.rdata = s.eng.rdata := rfl
@[simp] theorem startCommand_rvalid (op : Op) (a : Byte) (l : BitVec 2) (w : BitVec 32) : (startCommand op a l w s).eng.rvalid = s.eng.rvalid := rfl
@[simp] theorem startCommand_env (op : Op) (a : Byte) (l : BitVec 2) (w : BitVec 32) : (startCommand op a l w s).env = s.env := rfl

/-! `rxStepWrite` -/

@[simp] theorem rxStepWrite_cfg (b : Byte) : (rxStepWrite b s).cfg = s.cfg := rfl
@[simp] theorem rxStepWrite_cmdOp (b : Byte) : (rxStepWrite b s).eng.cmdOp = s.eng.cmdOp := rfl
@[simp] theorem rxStepWrite_cmdBoard (b : Byte) : (rxStepWrite b s).eng.cmdBoard = s.eng.cmdBoard := rfl
@[simp] theorem rxStepWrite_cmdAddr (b : Byte) : (rxStepWrite b s).eng.cmdAddr = s.eng.cmdAddr := rfl
@[simp] theorem rxStepWrite_cmdLen (b : Byte) : (rxStepWrite b s).eng.cmdLen = s.eng.cmdLen := rfl
@[simp] theorem rxStepWrite_cmdSim (b : Byte) : (rxStepWrite b s).eng.cmdSim = s.eng.cmdSim := rfl
@[simp] theorem rxStepWrite_shr (b : Byte) : (rxStepWrite b s).eng.shr = s.eng.shr := rfl
@[simp] theorem rxStepWrite_cks (b : Byte) : (rxStepWrite b s).eng.cks = s.eng.cks := rfl
@[simp] theorem rxStepWrite_racc (b : Byte) : (rxStepWrite b s).eng.racc = s.eng.racc := rfl
@[simp] theorem rxStepWrite_txi (b : Byte) : (rxStepWrite b s).eng.txi = s.eng.txi := rfl
@[simp] theorem rxStepWrite_rxi (b : Byte) : (rxStepWrite b s).eng.rxi = s.eng.rxi + 1 := rfl
@[simp] theorem rxStepWrite_ackok (b : Byte) : (rxStepWrite b s).eng.ackok = ackokAfter s.eng.ackok b := rfl
@[simp] theorem rxStepWrite_phase (b : Byte) : (rxStepWrite b s).eng.phase = (if s.eng.rxi.toNat + 1 = ackLen then .drain else s.eng.phase) := rfl
@[simp] theorem rxStepWrite_status (b : Byte) : (rxStepWrite b s).eng.status = s.eng.status := rfl
@[simp] theorem rxStepWrite_ack (b : Byte) : (rxStepWrite b s).eng.ack = s.eng.ack := rfl
@[simp] theorem rxStepWrite_rdata (b : Byte) : (rxStepWrite b s).eng.rdata = s.eng.rdata := rfl
@[simp] theorem rxStepWrite_rvalid (b : Byte) : (rxStepWrite b s).eng.rvalid = s.eng.rvalid := rfl
@[simp] theorem rxStepWrite_env (b : Byte) : (rxStepWrite b s).env = s.env := rfl

/-! `resetStep` -/

@[simp] theorem resetStep_cfg : (resetStep s).cfg = s.cfg := rfl
@[simp] theorem resetStep_eng : (resetStep s).eng = Engine.reset := rfl
@[simp] theorem resetStep_env : (resetStep s).env = s.env := rfl

end Sys2Proof.Machine
end

