-- ==== Sys2Proof/Laws/Ops.lean ====
section
/-! SUPPORT. What each shared operation of the sequencer can do, said once, so that later proofs cite these
and do not unfold the operations. -/

namespace Sys2Proof.Machine

/-! ### Accept -/

/-- When the checks of `Accept` pass, and with which address and length (R130). -/
theorem acceptCheck_ok_iff (op : Op) (c : CmdFields) (s : State) (a : Byte) (l : BitVec 2) :
    acceptCheck op c s = .ok (a, l) ↔
      isReservedOp op = false ∧
        (if usesCatalog op then catLookup s.cfg c.rsel else some (c.addr, c.len)) = some (a, l) ∧
        (op = .flush ∨ (l ≠ 0 ∧ c.board.toNat < s.cfg.nboards)) ∧
        (s.env.simMode = true ∨ s.env.linkOk = true) := by
  unfold acceptCheck
  cases hr : isReservedOp op
  · rcases (if usesCatalog op then catLookup s.cfg c.rsel else some (c.addr, c.len)) with _ | ⟨a', l'⟩
    · simp
    · by_cases hf : op = .flush <;> by_cases hl : l' = 0 <;>
        by_cases hb : s.cfg.nboards ≤ c.board.toNat <;> cases s.env.simMode <;> cases s.env.linkOk <;>
        simp_all <;> grind
  · simp

/-- `Accept` either ends the command with a status or starts it (R130). -/
theorem accept_cases (op : Op) (c : CmdFields) (s : State) :
    (∃ st, acceptCheck op c s = .error st ∧ accept op c s = raise st (latchCommand op c s)) ∨
      (∃ a l, acceptCheck op c s = .ok (a, l) ∧
        accept op c s = startCommand op a l c.wdata (latchCommand op c s)) := by
  unfold accept
  rcases acceptCheck op c s with st | ⟨a, l⟩
  · exact .inl ⟨st, rfl, rfl⟩
  · exact .inr ⟨a, l, rfl, rfl⟩

/-! ### TxStep -/

/-- The state in which frame byte `b` has just been built (R23, R22, R41, R131). -/
abbrev byteBuilt (b : Byte) (s : State) : State :=
  emitByte b { s with eng := { s.eng with cks := cksAfter s.eng b, shr := shrAfter s.eng } }

/-- A `TxStep` that answers a next state sends the byte of R127 and advances (R131). -/
theorem txStep_next {s t : State} (h : txStep s = .next t) :
    ∃ b, txByteAt s.eng s.eng.txi.toNat = some b ∧ t = txAdvance (byteBuilt b s) := by
  unfold txStep at h
  split at h
  · cases h
  · rename_i b hb
    exact ⟨b, hb, by simpa using h.symm⟩

@[simp] theorem emitByte_cfg (b : Byte) (s : State) : (emitByte b s).cfg = s.cfg := by
  unfold emitByte; split <;> rfl

@[simp] theorem emitByte_eng (b : Byte) (s : State) : (emitByte b s).eng = s.eng := by
  unfold emitByte; split <;> rfl

/-- A built byte is traced, and handed to port TX in real mode (R41, R131). -/
@[simp] theorem emitByte_env (b : Byte) (s : State) : (emitByte b s).env = { s.env with
    trace := s.env.trace ++ [{ dir := .t, data := b }]
    wireOut := if s.eng.cmdSim then s.env.wireOut else s.env.wireOut ++ [b] } := by
  unfold emitByte traceByte txByte; split <;> simp_all

/-- `txAdvance` counts on, completes a simulated write, or goes to phase RX (R131). -/
theorem txAdvance_cases (s : State) :
    (s.eng.txi.toNat < frameLen s.eng.cmdOp s.eng.cmdLen - 1 ∧
        txAdvance s = { s with eng := { s.eng with txi := s.eng.txi + 1 } }) ∨
      (frameLen s.eng.cmdOp s.eng.cmdLen - 1 ≤ s.eng.txi.toNat ∧ isWriteKind s.eng.cmdOp = true ∧
        s.eng.cmdSim = true ∧ txAdvance s = complete .ok true 0 false s) ∨
      (frameLen s.eng.cmdOp s.eng.cmdLen - 1 ≤ s.eng.txi.toNat ∧
        (isWriteKind s.eng.cmdOp = false ∨ s.eng.cmdSim = false) ∧
        txAdvance s = { s with eng := { s.eng with phase := .rx } }) := by
  unfold txAdvance
  split
  · rename_i h; exact .inl ⟨h, rfl⟩
  · rename_i h
    split
    · rename_i h'
      simp only [Bool.and_eq_true] at h'
      exact .inr (.inl ⟨by omega, h'.1, h'.2, rfl⟩)
    · rename_i h'
      refine .inr (.inr ⟨by omega, ?_, rfl⟩)
      cases hw : isWriteKind s.eng.cmdOp <;> simp_all

/-- R127 lists a byte for every index inside the frame of a register command. -/
theorem txByteAt_isSome (e : Engine) (i : Nat)
    (hk : isWriteKind e.cmdOp = true ∨ isReadKind e.cmdOp = true)
    (hi : i < frameLen e.cmdOp e.cmdLen) : ∃ b, txByteAt e i = some b := by
  unfold txByteAt
  unfold frameLen at hi
  rcases hk with hk | hk
  · simp only [hk, if_true] at hi ⊢
    repeat' split
    all_goals first | exact ⟨_, rfl⟩ | omega
  · simp only [hk, isWriteKind_of_isReadKind hk, if_true, Bool.false_eq_true, if_false] at hi ⊢
    repeat' split
    all_goals first | exact ⟨_, rfl⟩ | omega

theorem frameLen_le (op : Op) (len : BitVec 2) : frameLen op len ≤ 7 := by
  have := len.isLt; unfold frameLen; split <;> omega

theorem frameLen_pos (op : Op) (len : BitVec 2) : 0 < frameLen op len := by
  unfold frameLen; split <;> omega

theorem txEnabled_iff (s : State) :
    txEnabled s = true ↔ s.eng.cmdSim = true ∨ s.env.txReady = true := by simp [txEnabled]

/-- A frame row is one `TxStep` where it is the pending frame and the transport accepts; else it is nothing. -/
theorem transferFrame_eq (bytes : List Byte) (s : State) :
    (pendingFrame s = some bytes ∧ txEnabled s = true ∧ transferFrame bytes s = txStep s) ∨
      ((pendingFrame s ≠ some bytes ∨ txEnabled s = false) ∧ transferFrame bytes s = .next s) := by
  unfold transferFrame
  by_cases h : pendingFrame s = some bytes ∧ txEnabled s = true
  · exact .inl ⟨h.1, h.2, if_pos h⟩
  · refine .inr ⟨?_, if_neg h⟩
    rcases Decidable.not_and_iff_or_not.1 h with h | h
    · exact .inl h
    · exact .inr (by simpa using h)

/-! ### Taking a response byte -/

/-- `takeByte` takes the head of the response source in phase RX and nothing else (R38, R40). -/
theorem takeByte_eq_some {s t : State} {b : Byte} (h : takeByte s = some (b, t)) :
    s.eng.phase = .rx ∧ t.cfg = s.cfg ∧ t.eng = s.eng ∧
      ((s.eng.cmdSim = true ∧ ∃ rest, s.env.simq = b :: rest ∧ t.env = { s.env with simq := rest }) ∨
        (s.eng.cmdSim = false ∧ ∃ rest, s.env.rxq = b :: rest ∧ t.env = { s.env with rxq := rest })) := by
  unfold takeByte at h
  split at h
  · rename_i hp
    split at h
    · rename_i hs
      split at h
      · cases h
      · rename_i b' rest hq
        simp only [Option.some.injEq, Prod.mk.injEq] at h
        obtain ⟨rfl, rfl⟩ := h
        exact ⟨hp, rfl, rfl, .inl ⟨hs, rest, hq, rfl⟩⟩
    · rename_i hs
      split at h
      · cases h
      · rename_i b' rest hq
        simp only [Option.some.injEq, Prod.mk.injEq] at h
        obtain ⟨rfl, rfl⟩ := h
        exact ⟨hp, rfl, rfl, .inr ⟨by simpa using hs, rest, hq, rfl⟩⟩
  · cases h

@[simp] theorem takeByte_of_phase_ne {s : State} (h : s.eng.phase ≠ .rx) : takeByte s = none := by
  unfold takeByte; simp [h]

/-- `RxStep(b)` traces `b`, then is that of a write or of a read (R133). -/
theorem rxStep_eq (b : Byte) (s : State) : rxStep b s =
    if isWriteKind s.eng.cmdOp then rxStepWrite b (traceByte .r b s)
    else rxStepRead b (traceByte .r b s) := rfl

/-- `RxStep` of a read counts the byte, and completes on the last (R133). -/
theorem rxStepRead_cases (b : Byte) (s : State) :
    (s.eng.rxi.toNat + 1 = rdExtra + s.eng.cmdLen.toNat ∧
        rxStepRead b s = complete .ok false (raccAfter s.eng b) true
          { s with eng := { s.eng with racc := raccAfter s.eng b, rxi := s.eng.rxi + 1 } }) ∨
      (s.eng.rxi.toNat + 1 ≠ rdExtra + s.eng.cmdLen.toNat ∧
        rxStepRead b s = { s with eng := { s.eng with
          racc := raccAfter s.eng b, rxi := s.eng.rxi + 1 } }) := by
  unfold rxStepRead
  by_cases h : s.eng.rxi.toNat + 1 = rdExtra + s.eng.cmdLen.toNat
  · exact .inl ⟨h, by simp [h]⟩
  · exact .inr ⟨h, by simp [h]⟩

/-- Where a frame start stands: the phase, the index, the checksum, the kind and the bytes (R128). -/
theorem pendingFrame_eq_some {s : State} {bytes : List Byte} (h : pendingFrame s = some bytes) :
    s.eng.phase = .tx ∧ s.eng.txi = 0 ∧ s.eng.cks = 0 ∧
      bytes.length = frameLen s.eng.cmdOp s.eng.cmdLen ∧
      ((isWriteKind s.eng.cmdOp = true ∧
          bytes = writeFrame s.eng.cmdBoard s.eng.cmdAddr s.eng.cmdLen s.eng.shr) ∨
        (isReadKind s.eng.cmdOp = true ∧
          bytes = readReqFrame s.eng.cmdBoard s.eng.cmdAddr s.eng.cmdLen)) := by
  unfold pendingFrame at h
  split at h
  · rename_i hp
    split at h
    · rename_i hw
      simp only [Option.some.injEq] at h
      subst h
      exact ⟨hp.1, hp.2.1, hp.2.2, by simp [frameLen, hw], .inl ⟨hw, rfl⟩⟩
    · rename_i hw
      split at h
      · rename_i hr
        simp only [Option.some.injEq] at h
        subst h
        exact ⟨hp.1, hp.2.1, hp.2.2, by simp [frameLen, hw], .inr ⟨hr, rfl⟩⟩
      · cases h
  · cases h

end Sys2Proof.Machine
end

