-- ==== Sys2Proof/Laws/PerInstr.lean ====
section
/-! SUPPORT. Statements made of every instruction, one lemma per constructor: its encoding shows the fixed
bits of its row of the opcode table (R93 to R96, R100, R101, R110). -/

namespace Sys2Proof.Laws

open Sys2Proof.Machine

/-- The opcode in a command row's bits 60 to 58; a frame or reply row has none. -/
def rowOpcode : Instr → Option (BitVec 3)
  | .wrreg _ => some 0
  | .rdreg _ => some 1
  | .set _ => some 2
  | .get _ => some 3
  | .flush _ => some 4
  | .reservedOp5 _ => some 5
  | .reservedOp6 _ => some 6
  | .reservedOp7 _ => some 7
  | .wrframe1 _ _ _ _ | .wrframe2 _ _ _ _ _ | .wrframe3 _ _ _ _ _ _ => none
  | .rdreq1 _ _ _ | .rdreq2 _ _ _ | .rdreq3 _ _ _ => none
  | .ackreply | .rdreply1 _ _ _ | .rdreply2 _ _ _ _ | .rdreply3 _ _ _ _ _ => none

/-- The bytes of a frame or reply row, index 0 first: the fixed ones, and `none` for a field byte. -/
def rowBytes : Instr → List (Option Byte)
  | .wrreg _ | .rdreg _ | .set _ | .get _ | .flush _ => []
  | .reservedOp5 _ | .reservedOp6 _ | .reservedOp7 _ => []
  | .wrframe1 _ _ _ _ => [none, some 0x02, none, none, none]
  | .wrframe2 _ _ _ _ _ => [none, some 0x03, none, none, none, none]
  | .wrframe3 _ _ _ _ _ _ => [none, some 0x04, none, none, none, none, none]
  | .rdreq1 _ _ _ => [none, some 0x82, none, some 0x01, none]
  | .rdreq2 _ _ _ => [none, some 0x82, none, some 0x02, none]
  | .rdreq3 _ _ _ => [none, some 0x82, none, some 0x03, none]
  | .ackreply => [some 0x41, some 0x41]
  | .rdreply1 _ _ _ => [none, none, none]
  | .rdreply2 _ _ _ _ => [none, none, none, none]
  | .rdreply3 _ _ _ _ _ => [none, none, none, none, none]

/-- The encoding of an instruction is a word of its row: the row's opcode, or the row's length with every
fixed byte in its place. -/
def EncodesIntoRow.Statement (i : Instr) : Prop :=
  match encode i with
  | .cmd w => some (w.extractLsb' 58 3) = rowOpcode i
  | .frame bytes | .reply bytes =>
    List.Forall₂ (fun b r => ∀ v ∈ r, b = v) bytes (rowBytes i) ∧ rowOpcode i = none

theorem EncodesIntoRow.wrreg (c : CmdFields) : EncodesIntoRow.Statement (.wrreg c) := by
  simp [EncodesIntoRow.Statement, encode, rowOpcode, opCode, encodeCmd_op]

theorem EncodesIntoRow.rdreg (c : CmdFields) : EncodesIntoRow.Statement (.rdreg c) := by
  simp [EncodesIntoRow.Statement, encode, rowOpcode, opCode, encodeCmd_op]

theorem EncodesIntoRow.set (c : CmdFields) : EncodesIntoRow.Statement (.set c) := by
  simp [EncodesIntoRow.Statement, encode, rowOpcode, opCode, encodeCmd_op]

theorem EncodesIntoRow.get (c : CmdFields) : EncodesIntoRow.Statement (.get c) := by
  simp [EncodesIntoRow.Statement, encode, rowOpcode, opCode, encodeCmd_op]

theorem EncodesIntoRow.flush (c : CmdFields) : EncodesIntoRow.Statement (.flush c) := by
  simp [EncodesIntoRow.Statement, encode, rowOpcode, opCode, encodeCmd_op]

theorem EncodesIntoRow.reservedOp5 (c : CmdFields) : EncodesIntoRow.Statement (.reservedOp5 c) := by
  simp [EncodesIntoRow.Statement, encode, rowOpcode, opCode, encodeCmd_op]

theorem EncodesIntoRow.reservedOp6 (c : CmdFields) : EncodesIntoRow.Statement (.reservedOp6 c) := by
  simp [EncodesIntoRow.Statement, encode, rowOpcode, opCode, encodeCmd_op]

theorem EncodesIntoRow.reservedOp7 (c : CmdFields) : EncodesIntoRow.Statement (.reservedOp7 c) := by
  simp [EncodesIntoRow.Statement, encode, rowOpcode, opCode, encodeCmd_op]

theorem EncodesIntoRow.wrframe1 (header addr d0 cks : Byte) :
    EncodesIntoRow.Statement (.wrframe1 header addr d0 cks) := by
  simp [EncodesIntoRow.Statement, encode, rowOpcode, rowBytes]

theorem EncodesIntoRow.wrframe2 (header addr d0 d1 cks : Byte) :
    EncodesIntoRow.Statement (.wrframe2 header addr d0 d1 cks) := by
  simp [EncodesIntoRow.Statement, encode, rowOpcode, rowBytes]

theorem EncodesIntoRow.wrframe3 (header addr d0 d1 d2 cks : Byte) :
    EncodesIntoRow.Statement (.wrframe3 header addr d0 d1 d2 cks) := by
  simp [EncodesIntoRow.Statement, encode, rowOpcode, rowBytes]

theorem EncodesIntoRow.rdreq1 (header addr cks : Byte) :
    EncodesIntoRow.Statement (.rdreq1 header addr cks) := by
  simp [EncodesIntoRow.Statement, encode, rowOpcode, rowBytes]

theorem EncodesIntoRow.rdreq2 (header addr cks : Byte) :
    EncodesIntoRow.Statement (.rdreq2 header addr cks) := by
  simp [EncodesIntoRow.Statement, encode, rowOpcode, rowBytes]

theorem EncodesIntoRow.rdreq3 (header addr cks : Byte) :
    EncodesIntoRow.Statement (.rdreq3 header addr cks) := by
  simp [EncodesIntoRow.Statement, encode, rowOpcode, rowBytes]

theorem EncodesIntoRow.ackreply : EncodesIntoRow.Statement .ackreply := by
  simp [EncodesIntoRow.Statement, encode, rowOpcode, rowBytes, ackByte]

theorem EncodesIntoRow.rdreply1 (first d0 last : Byte) :
    EncodesIntoRow.Statement (.rdreply1 first d0 last) := by
  simp [EncodesIntoRow.Statement, encode, rowOpcode, rowBytes]

theorem EncodesIntoRow.rdreply2 (first d0 d1 last : Byte) :
    EncodesIntoRow.Statement (.rdreply2 first d0 d1 last) := by
  simp [EncodesIntoRow.Statement, encode, rowOpcode, rowBytes]

theorem EncodesIntoRow.rdreply3 (first d0 d1 d2 last : Byte) :
    EncodesIntoRow.Statement (.rdreply3 first d0 d1 d2 last) := by
  simp [EncodesIntoRow.Statement, encode, rowOpcode, rowBytes]

end Sys2Proof.Laws
end

