-- ==== Sys2Proof/Laws/Step.lean ====
section
/-! SUPPORT. What a step can do, said once: the environment moves, and then at most one of SRFE's steps of R8
happens. A property both keep is a property every step keeps. -/

namespace Sys2Proof.Machine

/-- A move of the environment: pins, port and schedule may change, bytes may join the two queues, and nothing
else changes (R75). -/
abbrev EnvMove (s t : State) : Prop :=
  t.cfg = s.cfg ∧ t.eng = s.eng ∧ t.env.wireOut = s.env.wireOut ∧ t.env.trace = s.env.trace ∧
    t.env.doneCount = s.env.doneCount ∧ t.env.flushCount = s.env.flushCount ∧
    (∃ bytes, t.env.rxq = s.env.rxq ++ bytes) ∧ ∃ bytes, t.env.simq = s.env.simq ++ bytes

/-- The pins and the transport's readiness are the same. -/
abbrev SamePins (s t : State) : Prop :=
  t.env.simMode = s.env.simMode ∧ t.env.linkOk = s.env.linkOk ∧ t.env.txReady = s.env.txReady

/-- One of SRFE's steps of R8, in the phase that enables it (R129). -/
inductive SrfeStep : State → State → Prop
  | accept (s : State) (op : Op) (c : CmdFields) (idle : s.eng.phase = .idle) : SrfeStep s (accept op c s)
  | tx (s t : State) (phase : s.eng.phase = .tx) (enabled : txEnabled s = true) (sent : txStep s = .next t) :
      SrfeStep s t
  | rx (s t : State) (b : Byte) (taken : takeByte s = some (b, t)) : SrfeStep s (rxStep b t)
  | timeout (s : State) (phase : s.eng.phase = .rx) : SrfeStep s (rxTimeoutStep s)
  | drain (s : State) (phase : s.eng.phase = .drain) : SrfeStep s (drainStep s)
  | reset (s : State) : SrfeStep s (resetStep s)

/-- The environment may move without touching the pins, then SRFE takes at most one step (R8). -/
abbrev AtMostOneStep (s t : State) : Prop :=
  ∃ u, EnvMove s u ∧ SamePins s u ∧ (t = u ∨ SrfeStep u t)

/-! ### Moves of the environment -/

theorem EnvMove.refl (s : State) : EnvMove s s :=
  ⟨rfl, rfl, rfl, rfl, rfl, rfl, ⟨[], by simp⟩, ⟨[], by simp⟩⟩

theorem EnvMove.trans {s t u : State} (h : EnvMove s t) (k : EnvMove t u) : EnvMove s u := by
  obtain ⟨h1, h2, h3, h4, h5, h6, ⟨a, ha⟩, b, hb⟩ := h
  obtain ⟨k1, k2, k3, k4, k5, k6, ⟨c, hc⟩, d, hd⟩ := k
  exact ⟨k1.trans h1, k2.trans h2, k3.trans h3, k4.trans h4, k5.trans h5, k6.trans h6,
    ⟨a ++ c, by rw [hc, ha, List.append_assoc]⟩, ⟨b ++ d, by rw [hd, hb, List.append_assoc]⟩⟩

/-- A move of the pins, the port or the schedule alone. -/
theorem envMove_of_queues {s t : State} (hc : t.cfg = s.cfg) (he : t.eng = s.eng)
    (hw : t.env.wireOut = s.env.wireOut) (ht : t.env.trace = s.env.trace)
    (hd : t.env.doneCount = s.env.doneCount) (hf : t.env.flushCount = s.env.flushCount)
    (hr : t.env.rxq = s.env.rxq) (hs : t.env.simq = s.env.simq) : EnvMove s t :=
  ⟨hc, he, hw, ht, hd, hf, ⟨[], by simp [hr]⟩, ⟨[], by simp [hs]⟩⟩

theorem setScript_envMove (es : List EnvEvent) (s : State) : EnvMove s (setScript es s) :=
  envMove_of_queues rfl rfl rfl rfl rfl rfl rfl rfl

theorem setCmdPort_envMove (w : Option CmdWord) (s : State) : EnvMove s (setCmdPort w s) :=
  envMove_of_queues rfl rfl rfl rfl rfl rfl rfl rfl

theorem arriveRx_envMove (bytes : List Byte) (s : State) : EnvMove s (arriveRx bytes s) :=
  ⟨rfl, rfl, rfl, rfl, rfl, rfl, ⟨bytes, rfl⟩, ⟨[], by simp⟩⟩

theorem arriveSim_envMove (bytes : List Byte) (s : State) : EnvMove s (arriveSim bytes s) :=
  ⟨rfl, rfl, rfl, rfl, rfl, rfl, ⟨[], by simp⟩, ⟨bytes, rfl⟩⟩

theorem offerReply_envMove (bytes : List Byte) (s : State) : EnvMove s (offerReply bytes s) := by
  unfold offerReply
  split
  · exact arriveSim_envMove bytes s
  · exact arriveRx_envMove bytes s

theorem offerReply_samePins (bytes : List Byte) (s : State) : SamePins s (offerReply bytes s) := by
  unfold offerReply; split <;> exact ⟨rfl, rfl, rfl⟩

/-! ### At most one step -/

theorem AtMostOneStep.refl (s : State) : AtMostOneStep s s := ⟨s, .refl s, ⟨rfl, rfl, rfl⟩, .inl rfl⟩

theorem AtMostOneStep.step {s t : State} (h : SrfeStep s t) : AtMostOneStep s t :=
  ⟨s, .refl s, ⟨rfl, rfl, rfl⟩, .inr h⟩

/-- What happens after a move of the environment that leaves the pins is still at most one step. -/
theorem AtMostOneStep.after {s u t : State} (h : EnvMove s u) (hp : SamePins s u) (k : AtMostOneStep u t) :
    AtMostOneStep s t := by
  obtain ⟨v, hv, hq, k⟩ := k
  exact ⟨v, h.trans hv, ⟨hq.1.trans hp.1, hq.2.1.trans hp.2.1, hq.2.2.trans hp.2.2⟩, k⟩

/-- A command at the port is one `Accept`, or nothing (R32, R130). -/
theorem hostCommand_cases {op : Op} {c : CmdFields} {s t : State} (h : hostCommand op c s = .next t) :
    AtMostOneStep s t := by
  simp only [hostCommand, Host.Outcome.next.injEq] at h
  subst h
  split
  · rename_i hp; exact .step (.accept s op c hp)
  · exact .refl s

/-- A frame that starts to go out is one `TxStep`, or nothing (R37, R129). -/
theorem transferFrame_cases {bytes : List Byte} {s t : State} (h : transferFrame bytes s = .next t) :
    AtMostOneStep s t := by
  unfold transferFrame at h
  split at h
  · rename_i hf
    exact .step (.tx s t (pendingFrame_eq_some hf.1).1 hf.2 h)
  · cases h; exact .refl s

/-- `rxTurn` is one `RxStep`, or nothing (R129). -/
theorem rxTurn_cases (s : State) : AtMostOneStep s (rxTurn s) := by
  unfold rxTurn
  split
  · exact .refl s
  · rename_i b t hb; exact .step (.rx s t b hb)

/-- A reply is its arrival and at most one `RxStep` (R75, R133). -/
theorem deliverReply_cases (bytes : List Byte) (s : State) : AtMostOneStep s (deliverReply bytes s) :=
  .after (offerReply_envMove bytes s) (offerReply_samePins bytes s) (rxTurn_cases _)

/-- Running any instruction is at most one of SRFE's steps. -/
theorem exec_cases {i : Instr} {s t : State} (h : exec i s = .next t) : AtMostOneStep s t := by
  cases i <;>
    first
    | exact hostCommand_cases h
    | exact transferFrame_cases h
    | (cases h; exact deliverReply_cases _ _)

theorem runPortWord_cases {p : PortWord} {s t : State} (h : runPortWord p s = .next t) : AtMostOneStep s t := by
  unfold runPortWord at h
  split at h
  · exact exec_cases h
  · split at h
    · cases h; exact deliverReply_cases _ _
    · cases h; exact .refl s

/-- SRFE's own turn is at most one of its steps (R8, R129). -/
theorem srfeTurn_cases {s t : State} (h : srfeTurn s = .next t) : AtMostOneStep s t := by
  unfold srfeTurn at h
  split at h
  · split at h
    · cases h; exact .refl s
    · exact .after (setCmdPort_envMove none s) ⟨rfl, rfl, rfl⟩ (runPortWord_cases h)
  · rename_i hp
    split at h
    · rename_i he; exact .step (.tx s t hp he h)
    · cases h; exact .refl s
  · cases h; exact rxTurn_cases s
  · rename_i hp
    cases h; exact .step (.drain s hp)

/-- An event that drives a pin is that alone; any other leaves the pins and is at most one of SRFE's steps. -/
theorem applyEvent_cases {e : EnvEvent} {s t : State} (h : applyEvent e s = .next t) :
    EnvMove s t ∨ AtMostOneStep s t := by
  unfold applyEvent at h
  split at h
  · exact .inr (srfeTurn_cases h)
  · cases h; exact .inl (setCmdPort_envMove _ s)
  · cases h; exact .inl (setCmdPort_envMove _ s)
  · cases h; exact .inl (arriveRx_envMove _ s)
  · cases h; exact .inl (arriveSim_envMove _ s)
  · simp only [Host.Outcome.next.injEq] at h
    subst h
    split
    · rename_i hr
      simp only [rxReady, Bool.and_eq_true, beq_iff_eq] at hr
      exact .inr (.step (.timeout s hr.1))
    · exact .inl (.refl s)
  · simp only [Host.Outcome.next.injEq] at h
    subst h
    split
    · rename_i hr
      simp only [simReady, Bool.and_eq_true, beq_iff_eq] at hr
      exact .inr (.step (.timeout s hr.1))
    · exact .inl (.refl s)
  · cases h; exact .inl (envMove_of_queues rfl rfl rfl rfl rfl rfl rfl rfl)
  · cases h; exact .inl (envMove_of_queues rfl rfl rfl rfl rfl rfl rfl rfl)
  · cases h; exact .inl (envMove_of_queues rfl rfl rfl rfl rfl rfl rfl rfl)
  · cases h; exact .inr (.step (.reset s))
  · exact .inr (runPortWord_cases h)
  · exact .inr (runPortWord_cases h)

/-- Everything a step can do: the environment moves, or it moves without touching the pins and SRFE takes at
most one of its steps (R8). -/
theorem step_cases {s t : State} (h : step s = .next t) : EnvMove s t ∨ AtMostOneStep s t := by
  unfold step nextStep at h
  split at h
  · exact .inr (srfeTurn_cases h)
  · rename_i e rest _
    rcases applyEvent_cases h with k | k
    · exact .inl ((setScript_envMove rest s).trans k)
    · exact .inr (.after (setScript_envMove rest s) ⟨rfl, rfl, rfl⟩ k)

/-- A property that the environment's moves and SRFE's steps keep is a property that every step keeps. -/
theorem step_keeps {P : State → Prop} (hE : ∀ s t, EnvMove s t → P s → P t)
    (hS : ∀ s t, SrfeStep s t → P s → P t) {s t : State} (h : step s = .next t) (hs : P s) : P t := by
  rcases step_cases h with k | ⟨u, hu, -, rfl | k⟩
  · exact hE s t k hs
  · exact hE s t hu hs
  · exact hS u t k (hE s u hu hs)

/-- A property that every step keeps holds after every run. -/
theorem run_keeps {P : State → Prop} (hP : ∀ s t, step s = .next t → P s → P t) {n : Nat} {s t : State}
    (h : run n s = .next t) (hs : P s) : P t := by
  induction n generalizing s with
  | zero => simp only [run, Host.Outcome.next.injEq] at h; exact h ▸ hs
  | succ n ih =>
    simp only [run] at h
    split at h
    · rename_i u hu; exact ih h (hP s u hu hs)
    · cases h
    · cases h

end Sys2Proof.Machine
end

