-- ==== Sys2Proof/Machine/HostSequences.lean ====
section
/-! DEFINITION. The host software's sequences of commands (R107, R205 to R219). They are outside the block
(R3) and `step` never calls them; they are recorded as pure functions to command lists and decisions. -/

namespace Sys2Proof.Machine

/-- The fields of a catalog command; the fields it ignores are 0 (R100). -/
def catalogCmd (board rsel : Byte) (value : BitVec 32) : CmdFields :=
  { board := board, addr := 0, len := 0, rsel := rsel, wdata := value }

/-- The same catalog write to boards 0, 1, 2, in that order (R206, R208). -/
def setThree (rsel : Byte) (v1 v2 v3 : BitVec 32) : List Instr :=
  [.set (catalogCmd 0 rsel v1), .set (catalogCmd 1 rsel v2), .set (catalogCmd 2 rsel v3)]

/-- `setPosition(a1, a2, a3)`: all three are issued whatever the earlier ones gave (R206). -/
def setPositionCmds (a1 a2 a3 : BitVec 32) : List Instr := setThree 0 a1 a2 a3

/-- `readPosition()` (R207). -/
def readPositionCmds : List Instr :=
  [.get (catalogCmd 0 1 0), .get (catalogCmd 1 1 0), .get (catalogCmd 2 1 0)]

/-- The "falsy" default: an absent value and an explicit 0 both become `v1` (R208; 90 C11). -/
def orFirst (v1 : BitVec 32) : Option (BitVec 32) → BitVec 32
  | none => v1
  | some v => if v = 0 then v1 else v

/-- `setPower(v1, v2, v3)` (R208). -/
def setPowerCmds (v1 : BitVec 32) (v2 v3 : Option (BitVec 32)) : List Instr :=
  setThree 2 v1 (orFirst v1 v2) (orFirst v1 v3)

/-- Strictly nearer than `tol`, as integers (R209). -/
def near (tol : Nat) (p a : Nat) : Bool := decide (((p : Int) - (a : Int)).natAbs < tol)

/-- The default tolerance of `waitUntilNear` (R209). -/
def defaultTol : Nat := 5

/-- One axis of a poll: `none` is a failed read, decided by HOST_FAILED_READ_POLICY (R209, R218). -/
def axisNear (policy : Nat → Bool) (tol a : Nat) : Option Nat → Bool
  | some p => near tol p a
  | none => policy a

/-- Whether `waitUntilNear` returns after a poll: all axes near, or the host's deadline has passed
(R209). Otherwise it polls again. -/
def waitReturns (policy : Nat → Bool) (tol : Nat) (targets : List Nat) (poll : List (Option Nat))
    (deadlinePassed : Bool) : Bool :=
  (List.zipWith (axisNear policy tol) targets poll).all id || deadlinePassed

/-- The commands of `moveUntilNear` that ends after `polls` polls: the wait happens whatever the writes gave,
and polls at least once (R209, R210). -/
def moveUntilNearCmds (a1 a2 a3 : BitVec 32) (polls : Nat) : List Instr :=
  setPositionCmds a1 a2 a3 ++ (List.replicate (max 1 polls) readPositionCmds).flatten

/-- One round of `moveFromList` and of replay's loop, each waypoint with the polls its move takes
(R212, R213). -/
def moveFromListRound (ws : List (BitVec 32 × BitVec 32 × BitVec 32 × Nat)) : List Instr :=
  ws.flatMap fun w => moveUntilNearCmds w.1 w.2.1 w.2.2.1 w.2.2.2

/-- The commands of the teach phase before the first trigger, with the optional FLUSH (R211). -/
def teachCmds (flushFirst : Bool) : List Instr :=
  setPowerCmds 0 none none ++ if flushFirst then [.flush (catalogCmd 0 0 0)] else []

/-- The commands of `replay` before its loop; the power is HOST_OPERATING_POWER (R212, R218). -/
def replayCmds (operatingPower : BitVec 32) : List Instr := setPowerCmds operatingPower none none

/-- The waypoint after number `i` of `n`: the sequence wraps back to the start (R212, R213). -/
def nextWaypoint (n i : Nat) : Nat := if i + 1 < n then i + 1 else 0

/-- The states of a teach and replay session (R214). -/
inductive Session where
  | idle | teaching | replaying
  deriving DecidableEq, Repr

/-- The operator's events (R211, R214). -/
inductive Operator where
  | start | trigger | endOfInput
  deriving DecidableEq, Repr

/-- `Idle → Teaching → [capture]* → Replaying → Replaying`; nothing returns to Idle (R214). -/
def sessionNext (s : Session) (e : Operator) : Session :=
  match s, e with
  | .idle, .start => .teaching
  | .idle, .trigger => .idle
  | .idle, .endOfInput => .idle
  | .teaching, .start => .teaching
  | .teaching, .trigger => .teaching
  | .teaching, .endOfInput => .replaying
  | .replaying, .start => .replaying
  | .replaying, .trigger => .replaying
  | .replaying, .endOfInput => .replaying

end Sys2Proof.Machine
end

