-- ==== Sys2Proof/Tests/Slice0.lean ====
section
/-! SUPPORT. The model's own tests: expected values come from 95_test_vectors.md and the worked examples of
the rules; and, for every statement that has hypotheses, a concrete state and operands that meet them. -/

namespace Sys2Proof.Tests

open Sys2Proof.Machine

/-! ### Helpers -/

/-- Fields of a command word. -/
def fields (board addr : Byte) (len : BitVec 2) (rsel : Byte) (wdata : BitVec 32) : CmdFields :=
  { board := board, addr := addr, len := len, rsel := rsel, wdata := wdata }

/-- Ready in real mode, the launch of 95_test_vectors.md. -/
def idle : State := State.reset

/-- Ready in real mode without a link. -/
def noLink : State := setLinkOk false idle

/-- Ready in simulated mode, no transport at all (95 P4). -/
def idleSim : State := setSimMode true noLink

/-- In the middle of `op` on register 51 of board 0, with value 1000 in SHR. -/
def midway (op : Op) (len : BitVec 2) (sim : Bool) (phase : Phase) : State :=
  { idle with eng := { idle.eng with
      cmdOp := op, cmdAddr := 51, cmdLen := len, cmdSim := sim, shr := 1000, ackok := true, phase := phase } }

/-- In phase TX of a register of three bytes, at index `txi` with the checksum `cks`. -/
def sending (op : Op) (sim : Bool) (txi : BitVec 3) (cks : Byte) : State :=
  { idle with eng := { idle.eng with
      cmdOp := op, cmdAddr := 51, cmdLen := 3, cmdSim := sim, phase := .tx, txi := txi, cks := cks } }

/-- A check of the state a step answers. -/
def nextIs (r : Result) (p : State → Bool) : Bool :=
  match r with
  | .next t => p t
  | .fault _ => false
  | .refused _ => false

/-- Idle again with these results. -/
def ended (st : Status) (ack : Bool) (rdata : BitVec 24) (rvalid : Bool) (t : State) : Bool :=
  decide (CompletedWith st ack rdata rvalid t)

/-! ### Decoding: one word for each row, written out from the spec -/

/-- 95 S3. -/
theorem test_decode_wrreg :
    decode (.cmd 0x00082A000000012C) = .ok (.wrreg (fields 2 10 2 0 300)) := by decide

/-- 95 section 2.3, the row of board 85: op 001, board 01010101, addr 11111111, len 11. -/
theorem test_decode_rdreg : decode (.cmd 0x0557FF0000000000) = .ok (.rdreg (fields 85 255 3 0 0)) := by decide

/-- 95 section 2.4. -/
theorem test_decode_set : decode (.cmd 0x080000030000BEEF) = .ok (.set (fields 0 0 0 3 0xBEEF)) := by decide

/-- 95 section 2.4. -/
theorem test_decode_get :
    decode (.cmd 0x0C0BFC01DEADBEEF) = .ok (.get (fields 2 0xFF 0 1 0xDEADBEEF)) := by decide

/-- 95 section 2.5, every other field all ones. -/
theorem test_decode_flush :
    decode (.cmd 0x13FFFFFFFFFFFFFF) = .ok (.flush (fields 0xFF 0xFF 3 0xFF 0xFFFFFFFF)) := by decide

/-- 95 section 2.5. -/
theorem test_decode_reservedOp5 : decode (.cmd 0x1400000000000000) = .ok (.reservedOp5 (fields 0 0 0 0 0)) := by
  decide

/-- 95 section 2.5. -/
theorem test_decode_reservedOp6 : decode (.cmd 0x1800000000000000) = .ok (.reservedOp6 (fields 0 0 0 0 0)) := by
  decide

/-- 95 section 2.5. -/
theorem test_decode_reservedOp7 :
    decode (.cmd 0x1FFFFFFFFFFFFFFF) = .ok (.reservedOp7 (fields 0xFF 0xFF 3 0xFF 0xFFFFFFFF)) := by decide

/-- 95 P2, `AA 02 2C 64 92`. -/
theorem test_decode_wrframe1 :
    decode (.frame [0xAA, 0x02, 0x2C, 0x64, 0x92]) = .ok (.wrframe1 0xAA 0x2C 0x64 0x92) := by decide

/-- R150, `AC 03 0A 2C 01 3A`. -/
theorem test_decode_wrframe2 :
    decode (.frame [0xAC, 0x03, 0x0A, 0x2C, 0x01, 0x3A]) = .ok (.wrframe2 0xAC 0x0A 0x2C 0x01 0x3A) := by decide

/-- R188, `AA 04 2F E8 03 00 1E`. -/
theorem test_decode_wrframe3 :
    decode (.frame [0xAA, 0x04, 0x2F, 0xE8, 0x03, 0x00, 0x1E]) =
      .ok (.wrframe3 0xAA 0x2F 0xE8 0x03 0x00 0x1E) := by decide

/-- R169, `AA 82 B2 01 35`. -/
theorem test_decode_rdreq1 : decode (.frame [0xAA, 0x82, 0xB2, 0x01, 0x35]) = .ok (.rdreq1 0xAA 0xB2 0x35) := by
  decide

/-- R169, `AA 82 39 02 BD`. -/
theorem test_decode_rdreq2 : decode (.frame [0xAA, 0x82, 0x39, 0x02, 0xBD]) = .ok (.rdreq2 0xAA 0x39 0xBD) := by
  decide

/-- R171, `AA 82 33 03 B8`. -/
theorem test_decode_rdreq3 : decode (.frame [0xAA, 0x82, 0x33, 0x03, 0xB8]) = .ok (.rdreq3 0xAA 0x33 0xB8) := by
  decide

/-- R95. -/
theorem test_decode_ackreply : decode (.reply [0x41, 0x41]) = .ok .ackreply := by decide

/-- 95 section 2.4, the reply of `Version`. -/
theorem test_decode_rdreply1 : decode (.reply [0x09, 0x2A, 0x00]) = .ok (.rdreply1 0x09 0x2A 0x00) := by decide

/-- 95 section 2.4, the reply of `mVelocity`. -/
theorem test_decode_rdreply2 :
    decode (.reply [0x01, 0xEF, 0xBE, 0x07]) = .ok (.rdreply2 0x01 0xEF 0xBE 0x07) := by decide

/-- R171. -/
theorem test_decode_rdreply3 :
    decode (.reply [0x00, 0xE8, 0x03, 0x00, 0x00]) = .ok (.rdreply3 0x00 0xE8 0x03 0x00 0x00) := by decide

/-- What is no row is rejected by name: index 1 is 05, a read request of length 4, a wrong acknowledgment. -/
theorem test_decode_rejects :
    decode (.frame [0xAA, 0x05, 0x2F, 0x00, 0x34]) = .error .noFrameRow ∧
      decode (.frame [0xAA, 0x82, 0x33, 0x04, 0xB9]) = .error .noFrameRow ∧
      decode (.frame [0xAA, 0x82, 0x33, 0x03]) = .error .noFrameRow ∧
      decode (.reply [0x41, 0x42]) = .error .noReplyRow ∧ decode (.reply [0x41]) = .error .noReplyRow := by
  decide

/-- Words in the numbering of the opcode table, one for each format. -/
theorem test_decodeTableWord :
    decodeTableWord 64 0x0404CF0000000000 = some (.rdreg (fields 1 51 3 0 0)) ∧
      decodeTableWord 48 0xAC030A2C013A = some (.wrframe2 0xAC 0x0A 0x2C 0x01 0x3A) ∧
      decodeTableWord 40 0xAA823303B8 = some (.rdreq3 0xAA 0x33 0xB8) ∧
      decodeTableWord 40 0x00E8030000 = some (.rdreply3 0x00 0xE8 0x03 0x00 0x00) ∧
      decodeTableWord 16 0x4141 = some .ackreply := by decide

/-- A placed word is what the next step runs: a command is accepted, a frame starts to go out, a reply comes in. -/
theorem test_withFetchWord :
    nextIs (step (idle.withFetchWord 64 0x00082A000000012C))
        (fun t => t.eng.phase == .tx && t.eng.shr == 300) = true ∧
      nextIs (step (idle.withFetchWord 48 0xAC030A2C013A))
        (fun t => t.env.wireOut == [0xAC] && t.eng.txi == 1 && t.eng.phase == .tx) = true ∧
      nextIs (step (idle.withFetchWord 16 0x4141)) (fun t => t.env.rxq == [0x41, 0x41]) = true := by decide

/-! ### Well-formedness: each check refuses something -/

theorem test_wf_command_checks :
    (Instr.wrreg (fields 0 47 0 0 1)).wf .default = false ∧
      (Instr.rdreg (fields 3 51 3 0 0)).wf .default = false ∧
      (Instr.set (fields 0 0 0 5 0)).wf .default = false ∧
      (Instr.get (fields 3 0 0 1 0)).wf .default = false ∧
      (Instr.reservedOp5 (fields 0 0 0 0 0)).wf .default = false ∧
      (Instr.reservedOp6 (fields 0 0 0 0 0)).wf .default = false ∧
      (Instr.reservedOp7 (fields 0 0 0 0 0)).wf .default = false ∧
      (Instr.wrreg (fields 2 10 2 0 300)).wf .default = true := by decide

/-- 95 section 2.8: a header below AA, a board that is not configured, a wrong checksum. -/
theorem test_wf_frame_checks :
    (Instr.wrframe1 0xA9 0x2C 0x64 0x92).wf .default = false ∧
      (Instr.wrframe1 0xAD 0x2C 0x64 0x92).wf .default = false ∧
      (Instr.wrframe2 0xAC 0x0A 0x2C 0x01 0x3B).wf .default = false ∧
      (Instr.rdreq3 0xAA 0x33 0xB9).wf .default = false ∧
      (Instr.wrframe1 0xAA 0x2C 0x64 0x92).wf .default = true := by decide

/-- No board, 87 boards, a taken rsel, length 0, a taken name, a rsel twice; and a legal extension. -/
theorem test_wf_config_checks :
    Config.wf { nboards := 0, catalogExt := [] } = false ∧
      Config.wf { nboards := 87, catalogExt := [] } = false ∧
      Config.wf { nboards := 3, catalogExt := [{ rsel := 4, name := "a", addr := 1, len := 1 }] } = false ∧
      Config.wf { nboards := 3, catalogExt := [{ rsel := 5, name := "a", addr := 1, len := 0 }] } = false ∧
      Config.wf { nboards := 3, catalogExt := [{ rsel := 5, name := "Version", addr := 1, len := 1 }] } = false ∧
      Config.wf { nboards := 3, catalogExt :=
        [{ rsel := 5, name := "a", addr := 1, len := 1 }, { rsel := 5, name := "b", addr := 2, len := 1 }] } =
          false ∧
      Config.wf { nboards := 86, catalogExt := [{ rsel := 255, name := "a", addr := 1, len := 3 }] } = true := by
  decide

/-! ### One step of each instruction -/

/-- R150: `Accept` of the source's own example. -/
theorem test_wrreg_accepted : nextIs (exec (.wrreg (fields 2 10 2 0 300)) idle)
    (fun t => t.eng.phase == .tx && t.eng.shr == 0x12C && t.eng.cks == 0 && t.eng.ackok) = true := by decide

/-- 95 section 2.6: length before board. -/
theorem test_wrreg_errLen :
    nextIs (exec (.wrreg (fields 3 47 0 0 0)) noLink) (ended .errLen false 0 false) = true := by decide

/-- 95 section 2.6: board before link. -/
theorem test_rdreg_errBoard :
    nextIs (exec (.rdreg (fields 3 51 3 0 0)) noLink) (ended .errBoard false 0 false) = true := by decide

/-- 95 section 2.6: no link in real mode, ignored in simulated mode. -/
theorem test_rdreg_errLink :
    nextIs (exec (.rdreg (fields 0 51 3 0 0)) noLink) (ended .errLink false 0 false) = true ∧
      nextIs (exec (.rdreg (fields 0 51 3 0 0)) idleSim) (fun t => t.eng.phase == .tx) = true := by decide

/-- 95 section 2.4: the `len` field 0 is ignored by SET. -/
theorem test_set_accepted : nextIs (exec (.set (fields 0 0 0 0 1000)) idle)
    (fun t => t.eng.phase == .tx && t.eng.cmdAddr == 47 && t.eng.cmdLen == 3) = true := by decide

/-- 95 section 2.6: raised in simulated mode too, before the board. -/
theorem test_set_errUnknownReg :
    nextIs (exec (.set (fields 5 0 0 7 0)) idleSim) (ended .errUnknownReg false 0 false) = true := by decide

/-- 95 section 2.4: junk in the unused fields. -/
theorem test_get_accepted : nextIs (exec (.get (fields 2 0xFF 0 1 0xDEADBEEF)) idle)
    (fun t => t.eng.phase == .tx && t.eng.cmdAddr == 51 && t.eng.cmdLen == 3 && t.eng.cmdBoard == 2) = true := by
  decide

/-- 95 section 2.6: the lookup before board and link. -/
theorem test_get_errUnknownReg :
    nextIs (exec (.get (fields 5 0 0 9 0)) noLink) (ended .errUnknownReg false 0 false) = true := by decide

/-- R198: the drain of a FLUSH empties the pending input. -/
theorem test_flush_drains :
    nextIs (exec (.flush (fields 0xFF 0xFF 0 0xFF 1)) (arriveRx [0x41, 0x41, 0x07] idle))
      (fun t => t.eng.phase == .drain && t.env.rxq == [0x41, 0x41, 0x07] &&
        nextIs (step t) (fun u => u.env.rxq == [] && ended .ok false 0 false u)) = true := by decide

/-- 95 section 2.5. -/
theorem test_flush_errLink :
    nextIs (exec (.flush (fields 0 0 0 0 0)) noLink) (ended .errLink false 0 false) = true := by decide

/-- 95 section 2.5. -/
theorem test_reservedOp5_errOp :
    nextIs (exec (.reservedOp5 (fields 0 0 0 0 0)) idle) (ended .errOp false 0 false) = true := by decide

/-- 95 section 2.5. -/
theorem test_reservedOp6_errOp :
    nextIs (exec (.reservedOp6 (fields 0 0 0 0 0)) idleSim) (ended .errOp false 0 false) = true := by decide

/-- 95 section 2.6: the opcode check comes first. -/
theorem test_reservedOp7_errOp :
    nextIs (exec (.reservedOp7 (fields 255 0 0 9 0)) noLink) (ended .errOp false 0 false) = true := by decide

/-- A write frame of len 1, `AA 02 33 E8` with checksum 0x02 + 0x33 + 0xE8 = 0x11D, starts with its header. -/
theorem test_wrframe1_starts :
    pendingFrame (midway .wrreg 1 false .tx) = some [0xAA, 0x02, 0x33, 0xE8, 0x1D] ∧
      nextIs (exec (.wrframe1 0xAA 0x33 0xE8 0x1D) (midway .wrreg 1 false .tx))
        (fun t => t.env.wireOut == [0xAA] && t.eng.txi == 1 && t.eng.phase == .tx && t.eng.cks == 0) = true := by
  decide

/-- A write frame of len 2: checksum 0x03 + 0x33 + 0xE8 + 0x03 = 0x121. -/
theorem test_wrframe2_starts :
    pendingFrame (midway .set 2 false .tx) = some [0xAA, 0x03, 0x33, 0xE8, 0x03, 0x21] ∧
      nextIs (exec (.wrframe2 0xAA 0x33 0xE8 0x03 0x21) (midway .set 2 false .tx))
        (fun t => t.env.wireOut == [0xAA] && t.eng.txi == 1) = true := by decide

/-- 95 P4 command 1, at address 51: a simulated write frame is traced only, whatever `tx_ready` is. -/
theorem test_wrframe3_simulated :
    nextIs (exec (.wrframe3 0xAA 0x33 0xE8 0x03 0x00 0x22) (setTxReady false (midway .wrreg 3 true .tx)))
      (fun t => t.env.wireOut == [] && t.env.trace == [{ dir := .t, data := 0xAA }] && t.eng.txi == 1) = true := by
  decide

/-- A read request of len 1: checksum 0x82 + 0x33 + 0x01 = 0xB6. -/
theorem test_rdreq1_starts : nextIs (exec (.rdreq1 0xAA 0x33 0xB6) (midway .rdreg 1 false .tx))
    (fun t => t.env.wireOut == [0xAA] && t.eng.txi == 1 && t.eng.phase == .tx) = true := by decide

/-- A read request of len 2: checksum 0xB7. -/
theorem test_rdreq2_starts : nextIs (exec (.rdreq2 0xAA 0x33 0xB7) (midway .get 2 true .tx))
    (fun t => t.env.wireOut == [] && t.env.trace.length == 1 && t.eng.txi == 1) = true := by decide

/-- R171. -/
theorem test_rdreq3_starts : nextIs (exec (.rdreq3 0xAA 0x33 0xB8) (midway .rdreg 3 false .tx))
    (fun t => t.env.wireOut == [0xAA] && t.eng.txi == 1) = true := by decide

/-- R37, R129: a real frame waits for `tx_ready`. -/
theorem test_rdreq3_waits :
    nextIs (exec (.rdreq3 0xAA 0x33 0xB8) (setTxReady false (midway .rdreg 3 false .tx)))
      (fun t => t == setTxReady false (midway .rdreg 3 false .tx)) = true := by decide

/-- R150: the first acknowledgment byte is taken, the second stands next. -/
theorem test_ackreply_taken : nextIs (exec .ackreply (midway .wrreg 2 false .rx))
    (fun t => t.eng.phase == .rx && t.eng.rxi == 1 && t.eng.ackok && t.env.rxq == [0x41]) = true := by decide

/-- R271: a late acknowledgment becomes stale input. -/
theorem test_ackreply_late : nextIs (exec .ackreply idle)
    (fun t => t.eng.phase == .idle && t.env.rxq == [0x41, 0x41]) = true := by decide

/-- In phase RX with `rxi` bytes taken and `racc` accumulated. -/
def taking (op : Op) (len : BitVec 2) (sim : Bool) (rxi : BitVec 3) (racc : BitVec 24) : State :=
  { idle with eng := { idle.eng with
      cmdOp := op, cmdAddr := 51, cmdLen := len, cmdSim := sim, ackok := true, phase := .rx
      rxi := rxi, racc := racc } }

/-- 95 section 2.4, the reply of `Version`: the first byte is skipped. -/
theorem test_rdreply1_taken : nextIs (exec (.rdreply1 0x09 0x2A 0x00) (taking .get 1 false 0 0))
    (fun t => t.eng.rxi == 1 && t.eng.racc == 0 && t.env.rxq == [0x2A, 0x00]) = true := by decide

/-- 95 section 2.4, its last byte: (OK, 0, 42, 1). -/
theorem test_rdreply1_last :
    nextIs (step (arriveRx [0x00] (taking .get 1 false 2 42))) (ended .ok false 42 true) = true := by decide

/-- A simulated read takes the canned bytes. -/
theorem test_rdreply2_taken : nextIs (exec (.rdreply2 0x01 0xEF 0xBE 0x07) (taking .get 2 true 0 0))
    (fun t => t.env.simq == [0xEF, 0xBE, 0x07] && t.env.rxq == [] && t.eng.rxi == 1) = true := by decide

/-- R170 (e): stale input is taken first. -/
theorem test_rdreply3_behind_stale_input :
    nextIs (exec (.rdreply3 0x00 0xE8 0x03 0x00 0x00) (arriveRx [0xFF] (taking .rdreg 3 false 0 0)))
      (fun t => t.env.trace == [{ dir := .r, data := 0xFF }] &&
        t.env.rxq == [0x00, 0xE8, 0x03, 0x00, 0x00]) = true := by decide

/-- R171: the second data byte, RACC = 0x0003E8. -/
theorem test_rdreply3_data : nextIs (step (arriveRx [0x03] (taking .rdreg 3 false 2 0xE8)))
    (fun t => t.eng.racc == 0x3E8 && t.eng.rxi == 3 && !t.eng.rvalid) = true := by decide

/-! ### The functions beside the machine -/

/-- 95 section 2.8. -/
theorem test_decodeRequest :
    decodeRequest 3 [0xAC, 0x03, 0x0A, 0x2C, 0x01, 0x3A] = some (.write 2 10 2 300) ∧
      decodeRequest 3 [0xAA, 0x82, 0x33, 0x03, 0xB8] = some (.readReq 0 51 3) ∧
      decodeRequest 3 [0xAC, 0x03, 0x0A, 0x2C, 0x01, 0x3B] = none ∧
      decodeRequest 3 [0xAA, 0x05, 0x2F, 0x00, 0x00, 0x00, 0x00, 0x34] = none ∧
      decodeRequest 3 [0xA9, 0x02, 0x2C, 0x64, 0x92] = none ∧
      decodeRequest 3 [0xAD, 0x02, 0x2C, 0x64, 0x92] = none ∧
      decodeRequest 4 [0xAD, 0x02, 0x2C, 0x64, 0x92] = some (.write 3 44 1 100) ∧
      decodeRequest 3 [0xAA, 0x82, 0x33, 0x04, 0xB9] = none ∧
      decodeRequest 3 [0xAA, 0x82, 0x33, 0x03] = none := by decide

/-- A machine that has sent `bytes` and is at `s`, beside a harness with 998 stored at (0, 51). -/
def bench (s : State) (bytes : List Byte) : Bench :=
  { board := boardStore (idealBoardStart 0 0 idle) 0 51 3 998
    machine := { s with env := { s.env with wireOut := bytes } } }

/-- A check of the bench after one step. -/
def benchIs (x : Bench) (p : Bench → Bool) : Bool :=
  match benchStep x with
  | .next y => p y
  | .fault _ => false
  | .refused _ => false

/-- 95 P1 command 4: with the last frame byte the reply `00 E6 03 00 00` of the stored 998 arrives. -/
theorem test_idealBoard_read :
    benchIs (bench (sending .rdreg false 4 0xB8) [0xAA, 0x82, 0x33, 0x03]) (fun y =>
      y.machine.env.rxq == [0x00, 0xE6, 0x03, 0x00, 0x00] && y.board.seen == 5) = true := by decide

/-- R80: with the last byte of `AA 04 33 E8 03 00 22` the harness stores 1000 and acknowledges. -/
theorem test_idealBoard_write :
    benchIs (bench (sending .wrreg false 6 0x22) [0xAA, 0x04, 0x33, 0xE8, 0x03, 0x00]) (fun y =>
      y.machine.env.rxq == [0x41, 0x41] && boardValue y.board 0 51 == 1000) = true := by decide

/-- R80: while the frame is incomplete nothing arrives, and after a wrong checksum nothing either. -/
theorem test_idealBoard_waits :
    benchIs (bench (sending .rdreg false 3 0xB5) [0xAA, 0x82, 0x33]) (fun y =>
      y.machine.env.rxq == [] && y.board.seen == 0) = true ∧
      benchIs (bench (sending .rdreg false 4 0xB9) [0xAA, 0x82, 0x33, 0x03]) (fun y =>
        y.machine.env.rxq == [] && y.board.seen == 0) = true := by decide

/-- 95 S5: `setPower(100)` and `setPower(100, 0)` issue the same commands. -/
theorem test_setPower_quirk :
    setPowerCmds 100 none none = setPowerCmds 100 (some 0) none ∧
      setPowerCmds 100 (some 0) none = [.set (fields 0 0 0 2 100), .set (fields 1 0 0 2 100),
        .set (fields 2 0 0 2 100)] := by decide

/-- 95 S6: 5 is not below 5. -/
theorem test_waitUntilNear :
    waitReturns (fun _ => false) 5 [1000, 2000, 3000] [some 998, some 2003, some 2996] false = true ∧
      waitReturns (fun _ => false) 5 [1000, 2000, 3000] [some 1005, some 2003, some 2996] false = false := by
  decide

/-- 95 S7: waypoint 0, then 1, then 0 again; nothing returns to Idle. -/
theorem test_moveFromList :
    nextWaypoint 2 0 = 1 ∧ nextWaypoint 2 1 = 0 ∧ sessionNext .teaching .endOfInput = .replaying ∧
      (moveFromListRound [(500, 600, 700, 2)]).length = 9 := by decide

/-- R181: names are compared exactly, case included. -/
theorem test_nameToRsel :
    nameToRsel .default "mPosition" = some 1 ∧ nameToRsel .default "Version" = some 4 ∧
      nameToRsel .default "version" = none := by decide

/-- R265: the launches of 95 P1 and P4 are clean ones; stale input in real mode, other canned data and a driven
pin are not. -/
theorem test_cleanLaunch :
    CleanLaunch [] idle ∧ CleanLaunch [0xAA, 0x10] (arriveSim [0xAA, 0x10] idleSim) ∧
      ¬ CleanLaunch [] (arriveRx [0x41] idle) ∧ ¬ CleanLaunch [] (arriveSim [7] idleSim) ∧
      ¬ CleanLaunch [] (setScript [.linkOk false] idle) := by
  unfold CleanLaunch ResultsOfACompletion
  refine ⟨?_, ?_, ?_, ?_, ?_⟩ <;> decide

/-! ### Witnesses: concrete states and operands that meet the hypotheses of the statements -/

/-- ReferenceParserRoundTrip, at the last board of the largest bus and the largest value. -/
theorem witness_ReferenceParserRoundTrip :
    86 ≤ maxBoards ∧ (85 : Byte).toNat < 86 ∧ (3 : BitVec 2) ≠ 0 ∧ (0xFFFFFF : BitVec 32).toNat < 2 ^ 24 := by
  decide

/-- ReferenceParserAcceptsExactlyLegalFrames, at the largest bus. -/
theorem witness_ReferenceParserAcceptsExactlyLegalFrames :
    ({ nboards := 86, catalogExt := [] } : Config).nboards ≤ maxBoards := by decide

/-- WriteFrameIgnoresHighBits (R144's own example). -/
theorem witness_WriteFrameIgnoresHighBits :
    (0x1FF : BitVec 32).toNat % 2 ^ (8 * (1 : BitVec 2).toNat) =
      (0xFF : BitVec 32).toNat % 2 ^ (8 * (1 : BitVec 2).toNat) := by decide

/-- A configuration with one more register, at the first and at the last free selector. -/
def extended (rsel : Byte) : Config :=
  { nboards := 86, catalogExt := [{ rsel := rsel, name := "pidGain", addr := 200, len := 2 }] }

/-- CatalogLookup: an entry of a legal extension at each end of its range, and selectors with no entry. -/
theorem witness_CatalogLookup :
    (extended 5).wf = true ∧ (extended 255).wf = true ∧
      ({ rsel := 5, name := "pidGain", addr := 200, len := 2 } : CatEntry) ∈ (extended 5).catalogExt ∧
      ({ rsel := 255, name := "pidGain", addr := 200, len := 2 } : CatEntry) ∈ (extended 255).catalogExt ∧
      5 ≤ (5 : Byte).toNat ∧ (∀ e ∈ (extended 255).catalogExt, e.rsel ≠ 5) := by decide

/-- WrregAndRdregAreAccepted: the last board, with a link and in simulated mode without one. -/
theorem witness_WrregAndRdregAreAccepted :
    (∀ s ∈ [idle, idleSim], s.eng.phase = .idle ∧ (2 : Byte).toNat < s.cfg.nboards ∧
      (s.env.simMode = true ∨ s.env.linkOk = true)) ∧ (1 : BitVec 2) ≠ 0 := by decide

/-- SetAndGetAreAccepted: the first and the last fixed entry. -/
theorem witness_SetAndGetAreAccepted :
    (∀ s ∈ [idle, idleSim], s.eng.phase = .idle ∧ catLookup s.cfg 0 = some (47, 3) ∧
      catLookup s.cfg 4 = some (178, 1) ∧ (2 : Byte).toNat < s.cfg.nboards ∧
      (s.env.simMode = true ∨ s.env.linkOk = true)) ∧ (3 : BitVec 2) ≠ 0 ∧ (1 : BitVec 2) ≠ 0 := by decide

/-- FlushNetEffect, in both modes. -/
theorem witness_FlushNetEffect :
    ∀ s ∈ [arriveRx [0x41] idle, idleSim], s.eng.phase = .idle ∧ s.env.script = [] ∧
      (s.env.simMode = true ∨ s.env.linkOk = true) := by decide

/-- ReservedOpcodesEndWithErrOp. -/
theorem witness_ReservedOpcodesEndWithErrOp : noLink.eng.phase = .idle := by decide

/-- UnknownRegisterEndsSetAndGet, at the first free and the last selector. -/
theorem witness_UnknownRegisterEndsSetAndGet :
    idle.eng.phase = .idle ∧ catLookup idle.cfg 5 = none ∧ catLookup idle.cfg 255 = none := by decide

/-- ZeroLengthEndsWrregAndRdreg. -/
theorem witness_ZeroLengthEndsWrregAndRdreg : idle.eng.phase = .idle ∧ (fields 3 47 0 0 0).len = 0 := by decide

/-- BoardOutOfRangeEndsRegisterCommands: the first board number that is not configured, all four commands. -/
theorem witness_BoardOutOfRangeEndsRegisterCommands :
    idle.eng.phase = .idle ∧
      WritesRegister idle.cfg (.wrreg (fields 3 47 3 0 0)) (fields 3 47 3 0 0) 47 3 ∧
      WritesRegister idle.cfg (.set (fields 3 0 0 0 0)) (fields 3 0 0 0 0) 47 3 ∧
      ReadsRegister idle.cfg (.rdreg (fields 3 47 3 0 0)) (fields 3 47 3 0 0) 47 3 ∧
      ReadsRegister idle.cfg (.get (fields 3 0 0 0 0)) (fields 3 0 0 0 0) 47 3 ∧
      (3 : BitVec 2) ≠ 0 ∧ idle.cfg.nboards ≤ (3 : Byte).toNat := by decide

/-- MissingLinkEndsRealCommands: FLUSH, and a write and a read of the last board. -/
theorem witness_MissingLinkEndsRealCommands :
    noLink.eng.phase = .idle ∧ noLink.env.simMode = false ∧ noLink.env.linkOk = false ∧
      WritesRegister noLink.cfg (.set (fields 2 0 0 0 0)) (fields 2 0 0 0 0) 47 3 ∧
      ReadsRegister noLink.cfg (.rdreg (fields 2 51 3 0 0)) (fields 2 51 3 0 0) 51 3 ∧
      (3 : BitVec 2) ≠ 0 ∧ (2 : Byte).toNat < noLink.cfg.nboards := by decide

/-- BusyCommandIsNotTaken: in each of the other three phases. -/
theorem witness_BusyCommandIsNotTaken :
    (∀ p ∈ [Phase.tx, .rx, .drain], busy (midway .wrreg 3 false p) = true) ∧
      isCommand (.flush (fields 0 0 0 0 0)) = true ∧ (midway .wrreg 3 false .tx).env.script = [] ∧
      nextIs (step (midway .wrreg 3 false .tx)) (fun _ => true) = true := by decide

/-- RealWriteNetEffect: a write of the last board with one stray byte behind the acknowledgment, and behind a
pair of bytes that is none. -/
theorem witness_RealWriteNetEffect :
    ∀ q ∈ [((0x41 : Byte), (0x41 : Byte)), (0x00, 0x00), (0x41, 0x42), (0x42, 0x41)],
    let s := arriveRx [q.1, q.2, 0x07] idle
    s.eng.phase = .idle ∧ WritesRegister s.cfg (.set (fields 2 0 0 0 3000)) (fields 2 0 0 0 3000) 47 3 ∧
      (3 : BitVec 2) ≠ 0 ∧ (2 : Byte).toNat < s.cfg.nboards ∧ s.env.simMode = false ∧ s.env.linkOk = true ∧
      s.env.txReady = true ∧ s.env.script = [] ∧ s.env.rxq = q.1 :: q.2 :: [0x07] := by
  intro q hq
  simp only [List.mem_cons, List.not_mem_nil, or_false] at hq
  rcases hq with rfl | rfl | rfl | rfl <;> decide

/-- ShortAcknowledgmentIsNotAcknowledged: no byte, and one byte. -/
theorem witness_ShortAcknowledgmentIsNotAcknowledged :
    ∀ q ∈ [([] : List Byte), [0x41]],
      let s := setScript (List.replicate (4 + 1 + q.length) EnvEvent.turn ++ [.rxTimeout, .turn])
        (arriveRx q idle)
      s.eng.phase = .idle ∧ WritesRegister s.cfg (.wrreg (fields 0 44 1 0 100)) (fields 0 44 1 0 100) 44 1 ∧
        (1 : BitVec 2) ≠ 0 ∧ (0 : Byte).toNat < s.cfg.nboards ∧ s.env.simMode = false ∧
        s.env.linkOk = true ∧ s.env.txReady = true ∧ s.env.rxq.length < 2 ∧
        s.env.script = List.replicate (4 + (1 : BitVec 2).toNat + s.env.rxq.length) EnvEvent.turn ++
          [EnvEvent.rxTimeout, EnvEvent.turn] := by decide

/-- SimulatedWriteNetEffect, without a link. -/
theorem witness_SimulatedWriteNetEffect :
    idleSim.eng.phase = .idle ∧
      WritesRegister idleSim.cfg (.wrreg (fields 2 47 3 0 1)) (fields 2 47 3 0 1) 47 3 ∧
      (3 : BitVec 2) ≠ 0 ∧ (2 : Byte).toNat < idleSim.cfg.nboards ∧ idleSim.env.simMode = true ∧
      idleSim.env.script = [] := by decide

/-- CompleteReadNetEffect: from the pending input, and from the canned data of 95 P4. -/
theorem witness_CompleteReadNetEffect :
    ∀ s ∈ [arriveRx [0x00, 0xE8, 0x03, 0x00, 0x00, 0x41] idle,
        arriveSim [0x00, 0xE8, 0x03, 0x00, 0x00, 0x41] idleSim],
      s.eng.phase = .idle ∧ ReadsRegister s.cfg (.get (fields 2 0 0 1 0)) (fields 2 0 0 1 0) 51 3 ∧
        (3 : BitVec 2) ≠ 0 ∧ (2 : Byte).toNat < s.cfg.nboards ∧
        (s.env.simMode = true ∨ (s.env.linkOk = true ∧ s.env.txReady = true)) ∧ s.env.script = [] ∧
        [0x00, 0xE8, 0x03, 0x00, (0x00 : Byte)].length = 2 + (3 : BitVec 2).toNat ∧
        responseQueue s.env.simMode s = [0x00, 0xE8, 0x03, 0x00, 0x00] ++ [0x41] := by decide

/-- ShortReadNetEffect: all but the last byte of a read of three, and none at all, in both modes. -/
theorem witness_ShortReadNetEffect :
    ∀ q ∈ [([] : List Byte), [0x00, 0xE8, 0x03, 0x00]],
      ∀ s ∈ [setScript (List.replicate (5 + q.length) EnvEvent.turn ++ [.rxTimeout]) (arriveRx q idle),
          setScript (List.replicate (5 + q.length) EnvEvent.turn ++ [.simTimeout]) (arriveSim q idleSim)],
        s.eng.phase = .idle ∧ ReadsRegister s.cfg (.rdreg (fields 0 51 3 0 0)) (fields 0 51 3 0 0) 51 3 ∧
          (3 : BitVec 2) ≠ 0 ∧ (0 : Byte).toNat < s.cfg.nboards ∧
          (s.env.simMode = true ∨ (s.env.linkOk = true ∧ s.env.txReady = true)) ∧
          q.length < 2 + (3 : BitVec 2).toNat ∧ responseQueue s.env.simMode s = q ∧
          s.env.script = List.replicate (5 + q.length) EnvEvent.turn ++
            [if s.env.simMode then EnvEvent.simTimeout else EnvEvent.rxTimeout] := by decide

/-- SetEqualsWrregAfterLookup, and GetEqualsRdregAfterLookup with the same `wdata` (R183's own example). -/
theorem witness_SetEqualsWrregAfterLookup :
    idle.eng.phase = .idle ∧ catLookup idle.cfg (fields 0 0 0 0 1000).rsel =
        some ((fields 0 47 3 0 1000).addr, (fields 0 47 3 0 1000).len) ∧
      (fields 0 47 3 0 1000).board = (fields 0 0 0 0 1000).board ∧
      (fields 0 47 3 0 1000).wdata = (fields 0 0 0 0 1000).wdata := by decide

/-- GetEqualsRdregAfterLookup with different `wdata`. -/
theorem witness_GetEqualsRdregAfterLookup :
    idle.eng.phase = .idle ∧ catLookup idle.cfg (fields 2 0xFF 0 1 0xDEADBEEF).rsel =
        some ((fields 2 51 3 0 0).addr, (fields 2 51 3 0 0).len) ∧
      (fields 2 51 3 0 0).board = (fields 2 0xFF 0 1 0xDEADBEEF).board := by decide

/-- FrameStartsWithItsHeader, FrameGoesOutWhole and FrameIsItsTxSteps: each of the six frames, in real mode with a transport that
accepts, and in simulated mode. -/
theorem witness_FrameGoesOutWhole :
    ∀ sim ∈ [false, true],
      (∀ x ∈ [(Instr.wrframe1 0xAA 0x33 0xE8 0x1D, (1 : BitVec 2)), (.wrframe2 0xAA 0x33 0xE8 0x03 0x21, 2),
          (.wrframe3 0xAA 0x33 0xE8 0x03 0x00 0x22, 3)],
        let s := midway .wrreg x.2 sim .tx
        encode x.1 = .frame (writeFrame s.eng.cmdBoard s.eng.cmdAddr s.eng.cmdLen s.eng.shr) ∧
          s.eng.phase = .tx ∧ s.eng.txi = 0 ∧ s.eng.cks = 0 ∧ isWriteKind s.eng.cmdOp = true ∧
          pendingFrame s = some (writeFrame s.eng.cmdBoard s.eng.cmdAddr s.eng.cmdLen s.eng.shr) ∧
          s.env.script = [] ∧ s.env.txReady = true) ∧
      ∀ x ∈ [(Instr.rdreq1 0xAA 0x33 0xB6, (1 : BitVec 2)), (.rdreq2 0xAA 0x33 0xB7, 2),
          (.rdreq3 0xAA 0x33 0xB8, 3)],
        let s := midway .get x.2 sim .tx
        encode x.1 = .frame (readReqFrame s.eng.cmdBoard s.eng.cmdAddr s.eng.cmdLen) ∧
          s.eng.phase = .tx ∧ s.eng.txi = 0 ∧ s.eng.cks = 0 ∧ isReadKind s.eng.cmdOp = true ∧
          pendingFrame s = some (readReqFrame s.eng.cmdBoard s.eng.cmdAddr s.eng.cmdLen) ∧
          s.env.script = [] ∧ s.env.txReady = true := by decide

/-- OtherFramesDoNotGoOut, second clause: the frame SRFE stands ready to send, and no acceptance. -/
theorem witness_OtherFramesDoNotGoOut_waiting :
    let s := setTxReady false (midway .rdreg 3 false .tx)
    encode (.rdreq3 0xAA 0x33 0xB8) = .frame [0xAA, 0x82, 0x33, 0x03, 0xB8] ∧
      pendingFrame s = some [0xAA, 0x82, 0x33, 0x03, 0xB8] ∧ s.eng.cmdSim = false ∧
      s.env.txReady = false := by decide

/-- OtherFramesDoNotGoOut, first clause: an idle SRFE, and one about to send another frame. -/
theorem witness_OtherFramesDoNotGoOut :
    ∀ s ∈ [idle, midway .wrreg 1 false .tx],
      encode (.rdreq3 0xAA 0x33 0xB8) = .frame [0xAA, 0x82, 0x33, 0x03, 0xB8] ∧
        pendingFrame s ≠ some [0xAA, 0x82, 0x33, 0x03, 0xB8] := by decide

/-- AcknowledgmentIsTaken. -/
theorem witness_AcknowledgmentIsTaken :
    let s := midway .set 3 false .rx
    s.eng.phase = .rx ∧ isWriteKind s.eng.cmdOp = true ∧ s.eng.cmdSim = false ∧ s.eng.rxi = 0 ∧
      s.env.rxq = [] ∧ s.env.script = [] := by decide

/-- ReadReplyCompletesTheRead and ReplyEndBytesDecideNothing: each of the three replies, in both modes. -/
theorem witness_ReadReplyCompletesTheRead :
    ∀ sim ∈ [false, true],
      ∀ x ∈ [(Instr.rdreply1 1 2 3, (1 : BitVec 2), [(2 : Byte)]), (.rdreply2 1 2 3 4, 2, [2, 3]),
          (.rdreply3 1 2 3 4 5, 3, [2, 3, 4])],
        let s := midway .rdreg x.2.1 sim .rx
        (∃ last, encode x.1 = .reply (1 :: (x.2.2 ++ [last])) ∧
            (x.2.2 ++ [last]).length = 1 + s.eng.cmdLen.toNat) ∧
          s.eng.phase = .rx ∧ isReadKind s.eng.cmdOp = true ∧ s.eng.cmdLen ≠ 0 ∧
          x.2.2.length = s.eng.cmdLen.toNat ∧ s.eng.rxi = 0 ∧ s.eng.racc = 0 ∧
          responseQueue s.eng.cmdSim s = [] ∧ s.env.script = [] := by
  intro sim hsim x hx
  simp only [List.mem_cons, List.not_mem_nil, or_false] at hsim hx
  rcases hsim with rfl | rfl <;> rcases hx with rfl | rfl | rfl <;> exact ⟨⟨_, rfl, rfl⟩, by decide⟩

/-- ReplyOutsideRxStaysPending: in phases IDLE, TX and DRAIN, a simulated command among them. -/
theorem witness_ReplyOutsideRxStaysPending :
    encode .ackreply = .reply [0x41, 0x41] ∧
      ∀ s ∈ [idle, midway .wrreg 3 false .tx, midway .rdreg 3 true .tx, midway .wrreg 3 false .drain],
        s.eng.phase ≠ .rx := by decide

/-- StepRunsTheDecodedInstruction, all four clauses. -/
theorem witness_StepRunsTheDecodedInstruction :
    let w : CmdWord := 0x00082A000000012C
    let s := setCmdPort (some w) idle
    let t := setScript [.turn] s
    let u := setScript [.frame [0xAA, 0x82, 0x33, 0x03, 0xB8]] (midway .rdreg 3 false .tx)
    let v := setScript [.reply [0x41, 0x41]] (midway .wrreg 3 false .rx)
    (s.eng.phase = .idle ∧ s.env.script = [] ∧ s.env.cmdPort = some w) ∧
      (t.eng.phase = .idle ∧ t.env.script = [.turn] ∧ t.env.cmdPort = some w) ∧
      decode (.cmd w) = .ok (.wrreg (fields 2 10 2 0 300)) ∧
      u.env.script = [.frame [0xAA, 0x82, 0x33, 0x03, 0xB8]] ∧
      decode (.frame [0xAA, 0x82, 0x33, 0x03, 0xB8]) = .ok (.rdreq3 0xAA 0x33 0xB8) ∧
      v.env.script = [.reply [0x41, 0x41]] ∧ decode (.reply [0x41, 0x41]) = .ok .ackreply := by decide

/-- ResetStepClearsTheEngine: in the middle of a command. -/
theorem witness_ResetStepClearsTheEngine :
    (setScript [.reset, .turn] (midway .wrreg 3 false .tx)).env.script = .reset :: [.turn] := by decide

/-- TxStepSendsOneByte: the first and the last byte of a write. -/
theorem witness_TxStepSendsOneByte_write :
    ∀ x ∈ [(sending .wrreg false 0 0, (0xAA : Byte)), (sending .set true 6 0x3A, 0x3A)],
      x.1.eng.phase = .tx ∧ x.1.env.script = [] ∧ (x.1.eng.cmdSim = true ∨ x.1.env.txReady = true) ∧
        txByteAt x.1.eng x.1.eng.txi.toNat = some x.2 := by decide

/-- TxStepSendsOneByte: the first and the last byte of a read request. -/
theorem witness_TxStepSendsOneByte_read :
    ∀ x ∈ [(sending .get true 0 0, (0xAA : Byte)), (sending .rdreg false 4 0xB8, 0xB8)],
      x.1.eng.phase = .tx ∧ x.1.env.script = [] ∧ (x.1.eng.cmdSim = true ∨ x.1.env.txReady = true) ∧
        txByteAt x.1.eng x.1.eng.txi.toNat = some x.2 := by decide

/-- RxStepTakesTheOldestByte: the first and the last byte of a write's and of a read's reply. -/
theorem witness_RxStepTakesTheOldestByte :
    ∀ x ∈ [(Op.wrreg, false, (0 : BitVec 3)), (.wrreg, false, 1), (.rdreg, false, 0), (.get, true, 4)],
      let s := arriveSim [7] (arriveRx [7] (midway x.1 3 x.2.1 .rx))
      let t := { s with eng := { s.eng with rxi := x.2.2 } }
      t.eng.phase = .rx ∧ t.env.script = [] ∧ responseQueue t.eng.cmdSim t = 7 :: [] := by decide

/-- TimeoutEndsTheReply: a write, a real read and a simulated read. -/
theorem witness_TimeoutEndsTheReply :
    ∀ x ∈ [(Op.wrreg, false, EnvEvent.rxTimeout), (.rdreg, false, .rxTimeout), (.get, true, .simTimeout)],
      let s := setScript [x.2.2] (midway x.1 3 x.2.1 .rx)
      s.eng.phase = .rx ∧ s.env.script = x.2.2 :: [] ∧
        ((x.2.2 = .rxTimeout ∧ s.eng.cmdSim = false) ∨ (x.2.2 = .simTimeout ∧ s.eng.cmdSim = true)) := by decide

/-- DrainCompletesTheCommand: a write, a FLUSH and a simulated FLUSH. -/
theorem witness_DrainCompletesTheCommand :
    ∀ s ∈ [midway .wrreg 3 false .drain, midway .flush 0 false .drain, midway .flush 0 true .drain],
      s.eng.phase = .drain ∧ s.env.script = [] := by decide

/-- EventsOutsideTheirPhaseAreIgnored: a timeout while idle, one on the port not in use, and each arrival. -/
theorem witness_EventsOutsideTheirPhaseAreIgnored :
    rxReady (setScript [.rxTimeout] idle) = false ∧
      rxReady (setScript [.rxTimeout] (midway .get 3 true .rx)) = false ∧
      simReady (setScript [.simTimeout] (midway .get 3 false .rx)) = false ∧
      (setScript [.arrive 7] idle).env.script = .arrive 7 :: [] ∧
      (setScript [.canned 7] idle).env.script = .canned 7 :: [] ∧ idle.eng.phase ≠ .rx := by decide

/-- PhaseTransitions, ResultsChangeOnlyAtDoneOrReset, WireAndTraceOnlyGrow, OneStepMovesAtMostOneByte and
ConfigurationNeverChanges: a step from each phase. -/
theorem witness_PhaseTransitions :
    ∀ s ∈ [setCmdPort (some 0x1000000000000000) idle, midway .wrreg 3 false .tx,
        arriveRx [0x41] (midway .wrreg 3 false .rx), midway .wrreg 3 false .drain],
      s.env.script.head? ≠ some .reset ∧ nextIs (step s) (fun t => t != s) = true := by decide

/-- SimulatedCommandLeavesTheTransportAlone: a byte arrives meanwhile. -/
theorem witness_SimulatedCommandLeavesTheTransportAlone :
    let s := setScript [.arrive 7] (midway .get 3 true .tx)
    busy s = true ∧ s.eng.cmdSim = true ∧ nextIs (step s) (fun t => t.env.rxq == [7]) = true := by decide

/-- PinsAreReadOnlyAtAccept. -/
theorem witness_PinsAreReadOnlyAtAccept :
    let s := midway .wrreg 3 false .tx
    busy s = true ∧ s.env.script = [] ∧ nextIs (step s) (fun t => t.env.wireOut == [0xAA]) = true := by decide

/-- BytesGoOutOnlyWhenAccepted: a byte of a real frame goes out. -/
theorem witness_BytesGoOutOnlyWhenAccepted :
    nextIs (step (midway .wrreg 3 false .tx)) (fun t => t.env.wireOut != (midway .wrreg 3 false .tx).env.wireOut) =
      true := by decide

/-- CleanLaunchHoldsThePins: in both modes, with arrivals scheduled, over a step. -/
theorem witness_CleanLaunchHoldsThePins :
    CleanLaunch [] (setScript [.arrive 7, .turn] idle) ∧ CleanLaunch [] (setScript [.canned 7, .turn] idleSim) ∧
      nextIs (run 1 (setScript [.arrive 7, .turn] idle)) (fun t => t.env.rxq == [7]) = true := by decide

/-- RunStaysOver: after one command, with a late byte still to come. -/
theorem witness_RunStaysOver :
    let t := complete .ok false 0 false (setScript [.arrive 7, .turn] idle)
    RunOver 1 idle t ∧ t.env.cmdPort = none ∧ (∀ e ∈ t.env.script, ∀ w, e ≠ EnvEvent.command w) ∧
      nextIs (run 1 t) (fun u => u.env.rxq == [7]) = true := by
  intro t
  refine ⟨by decide, rfl, ?_, by decide⟩
  intro e he w
  simp only [t, complete, setScript, List.mem_cons, List.not_mem_nil, or_false] at he
  rcases he with rfl | rfl <;> simp

/-- SrfeWaitsWithoutLimit: no reply, and a transport that does not accept. -/
theorem witness_SrfeWaitsWithoutLimit :
    let s := midway .get 3 false .rx
    let t := setTxReady false (midway .get 3 false .tx)
    (s.eng.phase = .rx ∧ s.env.script = [] ∧ responseQueue s.eng.cmdSim s = []) ∧
      t.eng.phase = .tx ∧ t.env.script = [] ∧ t.eng.cmdSim = false ∧ t.env.txReady = false := by decide

/-- EveryStepKeepsTheInvariant and InvariantStatesNeverStop: a state in the middle of a command meets it. -/
theorem witness_EveryStepKeepsTheInvariant : Invariant (midway .wrreg 3 false .tx) := by
  unfold Invariant InvR45; decide

/-- That state steps. -/
theorem witness_EveryStepKeepsTheInvariant_step :
    nextIs (step (midway .wrreg 3 false .tx)) (fun t => t.eng.txi == 1) = true := by decide

end Sys2Proof.Tests
end

section
/-! SUPPORT. How a frame goes out, byte by byte: the frame as its body and checksum, the engine once its first
`k` bytes are out, the one TxStep between two such states (R127, R128, R131), and the statements that rest on
it. -/

namespace Sys2Proof.Machine

/-! ### The frame of the latched command -/

/-- The bytes before the checksum of the frame that the latch, with `SHR` not yet shifted, says to send
(R93, R94). -/
def frameBody (e : Engine) : List Byte :=
  if isWriteKind e.cmdOp then
    headerByte e.cmdBoard :: lengthByte e.cmdLen :: e.cmdAddr :: pack e.shr e.cmdLen.toNat
  else [headerByte e.cmdBoard, rdMark, e.cmdAddr, lenField e.cmdLen]

theorem frameBody_of_write {e : Engine} (h : isWriteKind e.cmdOp = true) : frameBody e =
    headerByte e.cmdBoard :: lengthByte e.cmdLen :: e.cmdAddr :: pack e.shr e.cmdLen.toNat := if_pos h

theorem frameBody_of_read {e : Engine} (h : isReadKind e.cmdOp = true) :
    frameBody e = [headerByte e.cmdBoard, rdMark, e.cmdAddr, lenField e.cmdLen] := by
  simp [frameBody, isWriteKind_of_isReadKind h]

theorem frameBody_length (e : Engine) : (frameBody e).length + 1 = frameLen e.cmdOp e.cmdLen := by
  unfold frameBody frameLen
  split
  · simp only [List.length_cons, pack_length]; omega
  · rfl

theorem withChecksum_length (g : List Byte) : (withChecksum g).length = g.length + 1 := by
  simp [withChecksum]

/-- Byte `i` of a packed value is the low byte once `i` bytes are shifted out (R122). -/
theorem pack_getElem (v : BitVec 32) {n i : Nat} (hi : i < (pack v n).length) :
    (pack v n)[i] = (v >>> (8 * i)).setWidth 8 := by
  induction n generalizing v i with
  | zero => simp at hi
  | succ n ih =>
    cases i with
    | zero => simp [pack]
    | succ i =>
      have hlt : i < (pack (v >>> 8) n).length := by simpa using hi
      simp [pack, ih (v >>> 8) hlt, ← BitVec.shiftRight_add, Nat.mul_add, Nat.add_comm 8]

/-- A pending frame is the latched frame of a register command, at its start (R128). -/
theorem pendingFrame_eq_frameBody {s : State} {bytes : List Byte} (h : pendingFrame s = some bytes) :
    s.eng.phase = .tx ∧ s.eng.txi = 0 ∧ s.eng.cks = 0 ∧ isRegisterOp s.eng.cmdOp = true ∧
      bytes = withChecksum (frameBody s.eng) := by
  obtain ⟨hphase, htxi, hcks, -, hkind⟩ := pendingFrame_eq_some h
  refine ⟨hphase, htxi, hcks, ?_⟩
  rcases hkind with ⟨hw, hbytes⟩ | ⟨hr, hbytes⟩
  · exact ⟨by simp [isRegisterOp, hw], by rw [hbytes, frameBody_of_write hw, writeFrame]⟩
  · exact ⟨by simp [isRegisterOp, hr], by rw [hbytes, frameBody_of_read hr, readReqFrame]⟩

/-- Running a frame term offers its bytes as one frame to port TX (R7; log 5). -/
theorem exec_of_encode_frame {i : Instr} {bytes : List Byte} (h : encode i = .frame bytes) (s : State) :
    exec i s = transferFrame bytes s := by
  cases i <;> cases h <;> rfl

/-! ### The engine once the first `k` bytes are out -/

/-- The engine `e`, at the start of its frame, once the first `k` frame bytes are out: `TXI` counts them, `CKS`
sums them but the header, and a write has shifted out the data bytes among them (R22, R23, R131). -/
def Engine.afterBytes (e : Engine) (k : Nat) : Engine :=
  { e with
    txi := BitVec.ofNat 3 k
    cks := checksum ((frameBody e).take k)
    shr := if isWriteKind e.cmdOp then e.shr >>> (8 * (k - 3)) else e.shr }

@[simp] theorem Engine.afterBytes_cmdOp (e : Engine) (k : Nat) : (e.afterBytes k).cmdOp = e.cmdOp := rfl
@[simp] theorem Engine.afterBytes_cmdBoard (e : Engine) (k : Nat) :
    (e.afterBytes k).cmdBoard = e.cmdBoard := rfl
@[simp] theorem Engine.afterBytes_cmdAddr (e : Engine) (k : Nat) : (e.afterBytes k).cmdAddr = e.cmdAddr := rfl
@[simp] theorem Engine.afterBytes_cmdLen (e : Engine) (k : Nat) : (e.afterBytes k).cmdLen = e.cmdLen := rfl
@[simp] theorem Engine.afterBytes_cmdSim (e : Engine) (k : Nat) : (e.afterBytes k).cmdSim = e.cmdSim := rfl
@[simp] theorem Engine.afterBytes_phase (e : Engine) (k : Nat) : (e.afterBytes k).phase = e.phase := rfl
@[simp] theorem Engine.afterBytes_txi (e : Engine) (k : Nat) : (e.afterBytes k).txi = BitVec.ofNat 3 k := rfl
@[simp] theorem Engine.afterBytes_cks (e : Engine) (k : Nat) :
    (e.afterBytes k).cks = checksum ((frameBody e).take k) := rfl

theorem Engine.afterBytes_shr_of_write {e : Engine} (h : isWriteKind e.cmdOp = true) (k : Nat) :
    (e.afterBytes k).shr = e.shr >>> (8 * (k - 3)) := if_pos h

theorem Engine.afterBytes_shr_of_not_write {e : Engine} (h : isWriteKind e.cmdOp = false) (k : Nat) :
    (e.afterBytes k).shr = e.shr := by
  simp [afterBytes, h]

theorem Engine.afterBytes_zero {e : Engine} (htxi : e.txi = 0) (hcks : e.cks = 0) : e.afterBytes 0 = e := by
  cases e
  simp_all [afterBytes, checksum, byteSum]

/-- After the header alone only `TXI` has moved: the header is not in the checksum (R23). -/
theorem Engine.afterBytes_one {e : Engine} (hcks : e.cks = 0) : e.afterBytes 1 = { e with txi := 1 } := by
  cases e
  simp_all [afterBytes, checksum, byteSum]

theorem Engine.afterBytes_txi_toNat {e : Engine} {k : Nat} (hk : k < frameLen e.cmdOp e.cmdLen) :
    (e.afterBytes k).txi.toNat = k := by
  have hmax := frameLen_le e.cmdOp e.cmdLen
  simp only [afterBytes_txi, BitVec.toNat_ofNat]
  omega

/-- Once the whole body is out, `CKS` holds the checksum of the frame (R23, R123). -/
theorem Engine.afterBytes_cks_of_body {e : Engine} {k : Nat} (hk : k = (frameBody e).length) :
    (e.afterBytes k).cks = checksum (frameBody e) := by
  simp [hk]

/-- The last byte R127 lists for a write is `CKS`. -/
theorem txByteAt_checksum_of_write {e : Engine} (hw : isWriteKind e.cmdOp = true) {i : Nat}
    (hi : i = 3 + e.cmdLen.toNat) : txByteAt e i = some e.cks := by
  have hgt : ¬ 3 + e.cmdLen.toNat ≤ 2 + e.cmdLen.toNat := by omega
  have hne : ∀ j < 3, 3 + e.cmdLen.toNat ≠ j := fun j hj => by omega
  simp [txByteAt, hw, hi, hgt, hne]

/-- What `TxByteAt` lists at index `k`, with `CKS` and `SHR` as they then stand, is byte `k` of the frame
(R127, R128). -/
theorem txByteAt_afterBytes {e : Engine} (hop : isRegisterOp e.cmdOp = true) {k : Nat}
    (hk : k < frameLen e.cmdOp e.cmdLen) :
    txByteAt (e.afterBytes k) k = (withChecksum (frameBody e))[k]? := by
  have hlen := frameBody_length e
  simp only [isRegisterOp, Bool.or_eq_true] at hop
  rcases hop with hw | hr
  · have hframe : frameLen e.cmdOp e.cmdLen = 4 + e.cmdLen.toNat := by simp [frameLen, hw]
    match k with
    | 0 | 1 | 2 => simp [txByteAt, withChecksum, frameBody_of_write hw, hw]
    | n + 3 =>
      rcases Nat.lt_or_ge n e.cmdLen.toNat with hdata | hlast
      · have hle : n + 3 ≤ 2 + e.cmdLen.toNat := by omega
        simp [txByteAt, withChecksum, frameBody_of_write hw, hw, hle, List.getElem?_append_left, hdata,
          pack_getElem, Engine.afterBytes_shr_of_write hw]
      · have hend : n + 3 = (frameBody e).length := by omega
        have hidx : n + 3 = 3 + (e.afterBytes (n + 3)).cmdLen.toNat := by
          rw [Engine.afterBytes_cmdLen]; omega
        calc txByteAt (e.afterBytes (n + 3)) (n + 3)
            = some (e.afterBytes (n + 3)).cks := txByteAt_checksum_of_write (by simpa using hw) hidx
          _ = some (checksum (frameBody e)) := by rw [Engine.afterBytes_cks_of_body hend]
          _ = (withChecksum (frameBody e))[n + 3]? := by
            rw [withChecksum, hend, List.getElem?_concat_length]
  · have hw := isWriteKind_of_isReadKind hr
    have hframe : frameLen e.cmdOp e.cmdLen = 5 := by simp [frameLen, hw]
    match k, hframe ▸ hk with
    | 0, _ | 1, _ | 2, _ | 3, _ | 4, _ => simp [txByteAt, withChecksum, frameBody_of_read hr, hw, hr]

/-- Byte `k` of the body joins the checksum, unless it is the header (R23, R131). -/
theorem cksAfter_afterBytes {e : Engine} {k : Nat} {b : Byte} (hk : k + 1 < frameLen e.cmdOp e.cmdLen)
    (hb : (frameBody e)[k]? = some b) : cksAfter (e.afterBytes k) b = (e.afterBytes (k + 1)).cks := by
  have hlen := frameBody_length e
  have htake : (frameBody e).take (k + 1) = (frameBody e).take k ++ [b] := by
    rw [List.take_add_one, hb, Option.toList_some]
  rw [cksAfter, Engine.afterBytes_txi_toNat (by omega)]
  rcases Nat.eq_zero_or_pos k with rfl | hpos
  · simp [htake, checksum]
  · have hidx : 1 ≤ k ∧ k < frameLen e.cmdOp e.cmdLen - 1 := by omega
    have hdrop : ((frameBody e).take k ++ [b]).drop 1 = ((frameBody e).take k).drop 1 ++ [b] :=
      List.drop_append_of_le_length (by rw [List.length_take]; omega)
    simp [htake, checksum, hdrop, byteSum_append, byteSum, hidx]

/-- Each data byte of a write is shifted out, and nothing else (R22, R131). -/
theorem shrAfter_afterBytes {e : Engine} {k : Nat} (hk : k + 1 < frameLen e.cmdOp e.cmdLen) :
    shrAfter (e.afterBytes k) = (e.afterBytes (k + 1)).shr := by
  rw [shrAfter, Engine.afterBytes_txi_toNat (by omega)]
  cases hw : isWriteKind e.cmdOp
  · simp [Engine.afterBytes_shr_of_not_write hw, hw]
  · match k with
    | 0 | 1 | 2 => simp [Engine.afterBytes_shr_of_write hw]
    | n + 3 =>
      have hle : n + 3 ≤ 2 + e.cmdLen.toNat := by
        simp only [frameLen, hw, if_true] at hk; omega
      simp [Engine.afterBytes_shr_of_write hw, hw, hle, Nat.mul_add, BitVec.shiftRight_add]

/-! ### The state once the first `k` bytes are out -/

/-- A state is its configuration, its engine and what stands outside. -/
theorem state_eq {s t : State} (hcfg : s.cfg = t.cfg) (heng : s.eng = t.eng) (henv : s.env = t.env) : s = t := by
  cases s; cases t; simp_all

/-- The state `s`, at the start of its frame, once the first `k` frame bytes are out: traced in both modes, on
the wire in real mode only (R41, R131). -/
def sentBytes (s : State) (k : Nat) : State :=
  { s with
    eng := s.eng.afterBytes k
    env := { s.env with
      wireOut := if s.eng.cmdSim then s.env.wireOut
        else s.env.wireOut ++ (withChecksum (frameBody s.eng)).take k
      trace := s.env.trace ++ traced .t ((withChecksum (frameBody s.eng)).take k) } }

theorem sentBytes_zero {s : State} (htxi : s.eng.txi = 0) (hcks : s.eng.cks = 0) : sentBytes s 0 = s := by
  simp [sentBytes, Engine.afterBytes_zero htxi hcks, traced]

/-- `TxStep` where R127 lists byte `b`, short of the last index of the frame: the byte is built and `TXI`
counts on (R131). -/
theorem txStep_of_lt {s : State} {b : Byte} (hb : txByteAt s.eng s.eng.txi.toNat = some b)
    (hlt : s.eng.txi.toNat < frameLen s.eng.cmdOp s.eng.cmdLen - 1) :
    txStep s = .next { byteBuilt b s with
      eng := { s.eng with cks := cksAfter s.eng b, shr := shrAfter s.eng, txi := s.eng.txi + 1 } } := by
  simp [txStep, hb, txAdvance, hlt]

/-- The TxStep between the state after `k` bytes and the state after `k + 1`, short of the last byte (R131). -/
theorem txStep_sentBytes {s : State} (hop : isRegisterOp s.eng.cmdOp = true) {k : Nat}
    (hk : k + 1 < frameLen s.eng.cmdOp s.eng.cmdLen) :
    txStep (sentBytes s k) = .next (sentBytes s (k + 1)) := by
  have hlen := frameBody_length s.eng
  obtain ⟨b, hbody⟩ : ∃ b, (frameBody s.eng)[k]? = some b :=
    ⟨_, List.getElem?_eq_getElem (by omega : k < (frameBody s.eng).length)⟩
  have hframe : (withChecksum (frameBody s.eng))[k]? = some b := by
    rw [withChecksum, List.getElem?_append_left (by omega), hbody]
  have htake : (withChecksum (frameBody s.eng)).take (k + 1) =
      (withChecksum (frameBody s.eng)).take k ++ [b] := by
    rw [List.take_add_one, hframe, Option.toList_some]
  have htxi : (sentBytes s k).eng.txi.toNat = k := Engine.afterBytes_txi_toNat (by omega)
  have hbyte : txByteAt (sentBytes s k).eng (sentBytes s k).eng.txi.toNat = some b := by
    rw [htxi, ← hframe]; exact txByteAt_afterBytes hop (by omega)
  have hcks : cksAfter (sentBytes s k).eng b = _ := cksAfter_afterBytes hk hbody
  have hshr : shrAfter (sentBytes s k).eng = _ := shrAfter_afterBytes hk
  have hlt : (sentBytes s k).eng.txi.toNat < frameLen s.eng.cmdOp s.eng.cmdLen - 1 := by omega
  rw [txStep_of_lt hbyte hlt, hcks, hshr]
  refine congrArg _ (state_eq ?_ ?_ ?_)
  · simp [sentBytes]
  · simp [sentBytes, Engine.afterBytes, BitVec.ofNat_add]
  · simp [sentBytes, htake, traced]
    split <;> simp

/-- With nothing scheduled, in phase TX, and with the byte accepted or not wanted, SRFE's step is its `TxStep`
(R129). -/
theorem step_of_txEnabled {s : State} (hphase : s.eng.phase = .tx) (hscript : s.env.script = [])
    (hen : txEnabled s = true) : step s = txStep s := by
  simp [step, nextStep, hscript, srfeTurn, hphase, hen]

/-- Where the transport does not accept, SRFE waits (R129, R274). -/
theorem step_of_not_txEnabled {s : State} (hphase : s.eng.phase = .tx) (hscript : s.env.script = [])
    (hen : txEnabled s = false) : step s = .next s := by
  simp [step, nextStep, hscript, srfeTurn, hphase, hen]

theorem step_sentBytes {s : State} (hop : isRegisterOp s.eng.cmdOp = true) (hphase : s.eng.phase = .tx)
    (hscript : s.env.script = []) (hen : txEnabled s = true) {k : Nat}
    (hk : k + 1 < frameLen s.eng.cmdOp s.eng.cmdLen) :
    step (sentBytes s k) = .next (sentBytes s (k + 1)) := by
  have hturn : step (sentBytes s k) = txStep (sentBytes s k) := step_of_txEnabled hphase hscript hen
  rw [hturn, txStep_sentBytes hop hk]

/-- With nothing scheduled, the bytes of the frame go out one a step, in index order (R128, R132). -/
theorem run_sentBytes {s : State} (hop : isRegisterOp s.eng.cmdOp = true) (hphase : s.eng.phase = .tx)
    (hscript : s.env.script = []) (hen : txEnabled s = true) (n k : Nat)
    (hk : k + n < frameLen s.eng.cmdOp s.eng.cmdLen) :
    run n (sentBytes s k) = .next (sentBytes s (k + n)) := by
  induction n generalizing k with
  | zero => rfl
  | succ n ih =>
    rw [run, step_sentBytes hop hphase hscript hen (by omega), Nat.add_comm n 1, ← Nat.add_assoc]
    exact ih (k + 1) (by omega)

/-! ### Frames -/

/-- Settles O28: a frame term and SRFE's own turn are both the enabled `TxStep`, or both a wait; and the frame
goes out along `sentBytes`. -/
theorem frameIsItsTxSteps : Obligations.FrameIsItsTxSteps := by
  intro s i bytes hi hpending hscript
  obtain ⟨hphase, htxi, hcks, hop, hbytes⟩ := pendingFrame_eq_frameBody hpending
  constructor
  · rw [exec_of_encode_frame hi]
    rcases transferFrame_eq bytes s with ⟨-, hen, hrun⟩ | ⟨hnot, hrun⟩
    · rw [hrun, step_of_txEnabled hphase hscript hen]
    · have hen : txEnabled s = false := hnot.resolve_left (not_not_intro hpending)
      rw [hrun, step_of_not_txEnabled hphase hscript hen]
  · intro haccept k hk
    have hk : 0 + k < frameLen s.eng.cmdOp s.eng.cmdLen := by
      rw [hbytes, withChecksum_length, frameBody_length] at hk; omega
    have hrun := run_sentBytes hop hphase hscript ((txEnabled_iff s).2 haccept) k 0 hk
    rw [sentBytes_zero htxi hcks, Nat.zero_add] at hrun
    exact ⟨sentBytes s k, hrun, hphase, rfl, by rw [hbytes]; rfl⟩

/-- Settles O26: the step is the first `TxStep` of the frame, from no byte sent to one. -/
theorem frameStartsWithItsHeader : Obligations.FrameStartsWithItsHeader := by
  intro s i header rest hi hpending haccept
  obtain ⟨hphase, htxi, hcks, hop, hbytes⟩ := pendingFrame_eq_frameBody hpending
  have hlen : 0 + 1 < frameLen s.eng.cmdOp s.eng.cmdLen := by
    unfold frameLen; split <;> omega
  have hsend : transferFrame (header :: rest) s = txStep s :=
    if_pos ⟨hpending, (txEnabled_iff s).2 haccept⟩
  have hstep := txStep_sentBytes hop hlen
  rw [sentBytes_zero htxi hcks] at hstep
  rw [exec_of_encode_frame hi, hsend, hstep]
  simp [sentBytes, Engine.afterBytes_one hcks, ← hbytes]

/-! ### How many bytes a step moves -/

/-- Between the two states no byte moved, or one frame byte (on the wire too in real mode), or one response
byte (R41). -/
abbrev MovesAtMostOneByte (s t : State) : Prop :=
  (t.env.trace = s.env.trace ∧ t.env.wireOut = s.env.wireOut) ∨
    (∃ b, t.env.trace = s.env.trace ++ [{ dir := .t, data := b }] ∧
      t.env.wireOut = if s.eng.cmdSim then s.env.wireOut else s.env.wireOut ++ [b]) ∨
    (∃ b, t.env.trace = s.env.trace ++ [{ dir := .r, data := b }] ∧ t.env.wireOut = s.env.wireOut)

/-- `Accept` neither traces nor sends (R130). -/
theorem accept_movesNoByte (op : Op) (c : CmdFields) (s : State) :
    (accept op c s).env.trace = s.env.trace ∧ (accept op c s).env.wireOut = s.env.wireOut := by
  rcases accept_cases op c s with ⟨st, -, h⟩ | ⟨a, l, -, h⟩ <;> simp [h]

/-- Counting on, or the end of the frame, neither traces nor sends (R131). -/
theorem txAdvance_movesNoByte (s : State) :
    (txAdvance s).env.trace = s.env.trace ∧ (txAdvance s).env.wireOut = s.env.wireOut := by
  rcases txAdvance_cases s with ⟨-, h⟩ | ⟨-, -, -, h⟩ | ⟨-, -, h⟩ <;> simp [h]

/-- A `TxStep` moves its frame byte (R131). -/
theorem txStep_movesFrameByte {s t : State} (h : txStep s = .next t) :
    ∃ b, t.env.trace = s.env.trace ++ [{ dir := .t, data := b }] ∧
      t.env.wireOut = if s.eng.cmdSim then s.env.wireOut else s.env.wireOut ++ [b] := by
  obtain ⟨b, -, rfl⟩ := txStep_next h
  obtain ⟨htrace, hwire⟩ := txAdvance_movesNoByte (byteBuilt b s)
  exact ⟨b, by simp [htrace], by simp [hwire]⟩

/-- An `RxStep` moves its response byte (R133). -/
theorem rxStep_movesResponseByte (b : Byte) (s : State) :
    (rxStep b s).env.trace = s.env.trace ++ [{ dir := .r, data := b }] ∧
      (rxStep b s).env.wireOut = s.env.wireOut := by
  rw [rxStep_eq]
  split
  · simp
  · rcases rxStepRead_cases b (traceByte .r b s) with ⟨-, h⟩ | ⟨-, h⟩ <;> simp [h]

/-- A timeout neither traces nor sends (R134). -/
theorem rxTimeoutStep_movesNoByte (s : State) :
    (rxTimeoutStep s).env.trace = s.env.trace ∧ (rxTimeoutStep s).env.wireOut = s.env.wireOut := by
  unfold rxTimeoutStep; split <;> simp

/-- Nor does the drain: what it discards from the pending input is not moved (R135). -/
theorem drainStep_movesNoByte (s : State) :
    (drainStep s).env.trace = s.env.trace ∧ (drainStep s).env.wireOut = s.env.wireOut := by
  cases hsim : s.eng.cmdSim <;> simp [drainStep, hsim]

/-- Each of SRFE's steps of R8 moves at most one byte. -/
theorem SrfeStep.movesAtMostOneByte {s t : State} (h : SrfeStep s t) : MovesAtMostOneByte s t := by
  cases h with
  | accept op c _ => exact .inl (accept_movesNoByte op c s)
  | tx _ _ _ sent => exact .inr (.inl (txStep_movesFrameByte sent))
  | rx u b taken =>
    obtain ⟨-, -, -, hsource⟩ := takeByte_eq_some taken
    obtain ⟨htrace, hwire⟩ := rxStep_movesResponseByte b u
    rcases hsource with ⟨-, rest, -, henv⟩ | ⟨-, rest, -, henv⟩ <;>
      exact .inr (.inr ⟨b, by rw [htrace, henv], by rw [hwire, henv]⟩)
  | timeout _ => exact .inl (rxTimeoutStep_movesNoByte s)
  | drain _ => exact .inl (drainStep_movesNoByte s)
  | reset => exact .inl ⟨rfl, rfl⟩

theorem EnvMove.movesNoByte {s t : State} (h : EnvMove s t) :
    t.env.trace = s.env.trace ∧ t.env.wireOut = s.env.wireOut := by
  obtain ⟨-, -, hwire, htrace, -⟩ := h
  exact ⟨htrace, hwire⟩

/-- A move of the environment ahead of a step leaves what the step moves (R75). -/
theorem MovesAtMostOneByte.after_envMove {s u t : State} (h : MovesAtMostOneByte u t) (hmove : EnvMove s u) :
    MovesAtMostOneByte s t := by
  obtain ⟨-, heng, hwire, htrace, -⟩ := hmove
  rwa [MovesAtMostOneByte, heng, hwire, htrace] at h

/-- Settles O46: a step is a move of the environment, which moves no byte, and at most one of SRFE's steps. -/
theorem oneStepMovesAtMostOneByte : Obligations.OneStepMovesAtMostOneByte := by
  intro s t h
  rcases step_cases h with hmove | ⟨u, hmove, -, rfl | hstep⟩
  · exact .inl hmove.movesNoByte
  · exact .inl hmove.movesNoByte
  · exact hstep.movesAtMostOneByte.after_envMove hmove

end Sys2Proof.Machine
end

section
/-! SUPPORT. The invariant of R45: what it asks for in each phase, and that each of SRFE's steps of R8 keeps
it. -/

namespace Sys2Proof.Machine

/-! ### What the invariant asks for in each phase -/

section
variable {s : State} (hboards : s.cfg.nboards ≤ maxBoards) (hresult : ResultOk s)
include hboards hresult

/-- In phase IDLE only the result registers are held to something (R45 (f)). -/
theorem invariant_of_idle (hphase : s.eng.phase = .idle) : Invariant s := by
  refine ⟨⟨hboards, ?_, ?_, ?_, ?_, ?_, hresult, ?_⟩, ?_, ?_⟩ <;> intro hp <;> simp [hphase] at hp

/-- R45 (a) and (b), and that nothing has been received yet. -/
theorem invariant_of_tx (hphase : s.eng.phase = .tx) (hop : isRegisterOp s.eng.cmdOp = true)
    (hlen : s.eng.cmdLen ≠ 0) (hboard : s.eng.cmdBoard.toNat < s.cfg.nboards)
    (htxi : s.eng.txi.toNat < frameLen s.eng.cmdOp s.eng.cmdLen) (hrxi : s.eng.rxi = 0)
    (hracc : s.eng.racc = 0) : Invariant s := by
  refine ⟨⟨hboards, fun _ => ⟨hop, hlen, hboard⟩, fun _ => htxi, ?_, ?_, ?_, hresult, ?_⟩,
    fun _ => ⟨hrxi, hracc⟩, ?_⟩ <;> intro hp <;> simp [hphase] at hp

/-- R45 (a), (c), (d), and RACC inside the data bytes counted so far, from which (g) follows by (c). -/
theorem invariant_of_rx (hphase : s.eng.phase = .rx) (hop : isRegisterOp s.eng.cmdOp = true)
    (hlen : s.eng.cmdLen ≠ 0) (hboard : s.eng.cmdBoard.toNat < s.cfg.nboards)
    (hrxi : s.eng.rxi.toNat < rxN s.eng.cmdOp s.eng.cmdLen)
    (hreal : isWriteKind s.eng.cmdOp = true → s.eng.cmdSim = false)
    (hracc : isReadKind s.eng.cmdOp = true → s.eng.racc.toNat < 2 ^ (8 * (s.eng.rxi.toNat - 1))) :
    Invariant s := by
  have hfits : isReadKind s.eng.cmdOp = true → s.eng.racc.toNat < 2 ^ (8 * s.eng.cmdLen.toNat) := by
    intro hr
    have hcount : s.eng.rxi.toNat < rdExtra + s.eng.cmdLen.toNat := by
      simpa [rxN, isWriteKind_of_isReadKind hr] using hrxi
    exact (hracc hr).trans_le (Nat.pow_le_pow_right (by decide) (by unfold rdExtra at hcount; omega))
  refine ⟨⟨hboards, fun _ => ⟨hop, hlen, hboard⟩, ?_, fun _ => hrxi, fun _ => hreal, ?_, hresult,
    fun _ => hfits⟩, ?_, fun _ => hracc⟩ <;> intro hp <;> simp [hphase] at hp

/-- R45 (e). -/
theorem invariant_of_drain (hphase : s.eng.phase = .drain)
    (hdrain : s.eng.cmdOp = .flush ∨ (isWriteKind s.eng.cmdOp = true ∧ s.eng.cmdSim = false)) :
    Invariant s := by
  refine ⟨⟨hboards, ?_, ?_, ?_, ?_, fun _ => hdrain, hresult, ?_⟩, ?_, ?_⟩ <;> intro hp <;>
    simp [hphase] at hp

end

/-- The invariant reads the configuration and the engine alone. -/
theorem Invariant.of_eng_eq {s t : State} (h : Invariant s) (hcfg : t.cfg = s.cfg) (heng : t.eng = s.eng) :
    Invariant t := by
  cases s; cases t
  subst hcfg heng
  exact h

/-! ### SRFE's steps keep it -/

theorem isRegisterOp_of_accepted {op : Op} (hreserved : isReservedOp op = false) (hflush : op ≠ .flush) :
    isRegisterOp op = true := by
  cases op <;> simp_all [isReservedOp, isRegisterOp, isWriteKind, isReadKind]

theorem rxN_pos (op : Op) (len : BitVec 2) : 0 < rxN op len := by
  unfold rxN ackLen rdExtra; split <;> omega

/-- A byte added at the next free position keeps RACC inside the data bytes counted (R24). -/
theorem raccAfter_lt {e : Engine} {b : Byte} (hracc : e.racc.toNat < 2 ^ (8 * (e.rxi.toNat - 1)))
    (hcount : e.rxi.toNat ≤ e.cmdLen.toNat) : (raccAfter e b).toNat < 2 ^ (8 * e.rxi.toNat) := by
  unfold raccAfter
  rcases Nat.eq_zero_or_pos e.rxi.toNat with hzero | hpos
  · simpa [hzero] using hracc
  · obtain ⟨k, hk⟩ : ∃ k, e.rxi.toNat = k + 1 := ⟨_, (Nat.succ_pred_eq_of_pos hpos).symm⟩
    have hpow : 2 ^ (8 * (k + 1)) = 256 * 2 ^ (8 * k) := by rw [Nat.mul_add, Nat.pow_add, Nat.mul_comm]
    have hbyte : b.toNat * 2 ^ (8 * k) ≤ 255 * 2 ^ (8 * k) :=
      Nat.mul_le_mul_right _ (Nat.le_of_lt_succ b.isLt)
    rw [hk, Nat.add_sub_cancel] at hracc
    rw [if_pos ⟨hpos, hcount⟩, hk, hpow, Nat.add_sub_cancel, BitVec.toNat_add, BitVec.toNat_shiftLeft,
      BitVec.toNat_setWidth, Nat.shiftLeft_eq]
    have hsmall : (b.toNat % 2 ^ 24 * 2 ^ (8 * k)) % 2 ^ 24 ≤ b.toNat * 2 ^ (8 * k) :=
      (Nat.mod_le _ _).trans (Nat.mul_le_mul_right _ (Nat.mod_le _ _))
    have hmod := Nat.mod_le (e.racc.toNat + (b.toNat % 2 ^ 24 * 2 ^ (8 * k)) % 2 ^ 24) (2 ^ 24)
    omega

theorem accept_keeps_invariant (op : Op) (c : CmdFields) {s : State} (h : Invariant s) :
    Invariant (accept op c s) := by
  obtain ⟨⟨hboards, -, -, -, -, -, hresult, -⟩, -⟩ := h
  rcases accept_cases op c s with ⟨st, -, heq⟩ | ⟨a, l, hcheck, heq⟩ <;> rw [heq]
  · exact invariant_of_idle hboards ⟨by simp, by simp⟩ rfl
  · obtain ⟨hreserved, -, hlegal, -⟩ := (acceptCheck_ok_iff op c s a l).1 hcheck
    by_cases hflush : op = .flush
    · exact invariant_of_drain hboards hresult (if_pos hflush) (.inl hflush)
    · obtain ⟨hlen, hboard⟩ := hlegal.resolve_left hflush
      exact invariant_of_tx hboards hresult (if_neg hflush) (isRegisterOp_of_accepted hreserved hflush)
        hlen hboard (frameLen_pos op l) rfl rfl

/-- What R45 gives of a register command in phase TX passes over to the next index or to phase RX. -/
theorem txAdvance_keeps_invariant {s : State} (hphase : s.eng.phase = .tx) (h : Invariant s) :
    Invariant (txAdvance s) := by
  obtain ⟨⟨hboards, hlatch, -, -, -, -, hresult, -⟩, hfresh, -⟩ := h
  obtain ⟨hop, hlen, hboard⟩ := hlatch (.inl hphase)
  obtain ⟨hrxi, hracc⟩ := hfresh hphase
  rcases txAdvance_cases s with ⟨hlt, heq⟩ | ⟨-, -, -, heq⟩ | ⟨-, hreal, heq⟩ <;> rw [heq]
  · have hnext : (s.eng.txi + 1).toNat < frameLen s.eng.cmdOp s.eng.cmdLen := by
      have hmax := frameLen_le s.eng.cmdOp s.eng.cmdLen
      rw [BitVec.toNat_add, show (1 : BitVec 3).toNat = 1 from rfl]
      omega
    exact invariant_of_tx hboards hresult hphase hop hlen hboard hnext hrxi hracc
  · exact invariant_of_idle hboards ⟨by simp, by simp⟩ rfl
  · refine invariant_of_rx hboards hresult rfl hop hlen hboard ?_ (fun hw => by simpa [hw] using hreal) ?_
    · simpa [hrxi] using rxN_pos s.eng.cmdOp s.eng.cmdLen
    · simp [hrxi, hracc]

/-- The invariant does not read `CKS` and `SHR`, which a built byte changes. -/
theorem byteBuilt_keeps_invariant (b : Byte) {s : State} (h : Invariant s) : Invariant (byteBuilt b s) := by
  have hbuilt : Invariant { s with eng := { s.eng with cks := cksAfter s.eng b, shr := shrAfter s.eng } } := h
  exact hbuilt.of_eng_eq (by simp) (by simp)

theorem txStep_keeps_invariant {s t : State} (hphase : s.eng.phase = .tx) (hstep : txStep s = .next t)
    (h : Invariant s) : Invariant t := by
  obtain ⟨b, -, rfl⟩ := txStep_next hstep
  exact txAdvance_keeps_invariant (by simpa using hphase) (byteBuilt_keeps_invariant b h)

theorem rxi_add_one_toNat {e : Engine} (h : e.rxi.toNat < rxN e.cmdOp e.cmdLen) :
    (e.rxi + 1).toNat = e.rxi.toNat + 1 := by
  have hlen := e.cmdLen.isLt
  have hmax : rxN e.cmdOp e.cmdLen ≤ 5 := by unfold rxN ackLen rdExtra; split <;> omega
  rw [BitVec.toNat_add, show (1 : BitVec 3).toNat = 1 from rfl]
  omega

theorem rxStepWrite_keeps_invariant (b : Byte) {s : State} (hphase : s.eng.phase = .rx)
    (hwrite : isWriteKind s.eng.cmdOp = true) (h : Invariant s) : Invariant (rxStepWrite b s) := by
  obtain ⟨⟨hboards, hlatch, -, hcount, hreal, -, hresult, -⟩, -⟩ := h
  obtain ⟨hop, hlen, hboard⟩ := hlatch (.inr hphase)
  by_cases hlast : s.eng.rxi.toNat + 1 = ackLen
  · exact invariant_of_drain hboards hresult (if_pos hlast) (.inr ⟨hwrite, hreal hphase hwrite⟩)
  · have hnext : (s.eng.rxi + 1).toNat < rxN s.eng.cmdOp s.eng.cmdLen := by
      have hlt := hcount hphase
      rw [rxi_add_one_toNat hlt]
      simp only [rxN, hwrite, if_true] at hlt ⊢
      omega
    exact invariant_of_rx hboards hresult ((if_neg hlast).trans hphase) hop hlen hboard hnext (hreal hphase)
      (fun hread => absurd ((isWriteKind_of_isReadKind hread).symm.trans hwrite) Bool.false_ne_true)

theorem rxStepRead_keeps_invariant (b : Byte) {s : State} (hphase : s.eng.phase = .rx)
    (hwrite : isWriteKind s.eng.cmdOp = false) (h : Invariant s) : Invariant (rxStepRead b s) := by
  obtain ⟨⟨hboards, hlatch, -, hcount, hreal, -, hresult, -⟩, -, hracc⟩ := h
  obtain ⟨hop, hlen, hboard⟩ := hlatch (.inr hphase)
  rcases rxStepRead_cases b s with ⟨-, heq⟩ | ⟨hmore, heq⟩ <;> rw [heq]
  · exact invariant_of_idle hboards ⟨by simp, by simp⟩ rfl
  · have hlt := hcount hphase
    have hsucc := rxi_add_one_toNat hlt
    have hn : rxN s.eng.cmdOp s.eng.cmdLen = rdExtra + s.eng.cmdLen.toNat := by simp [rxN, hwrite]
    have hdata : s.eng.rxi.toNat ≤ s.eng.cmdLen.toNat := by
      unfold rdExtra at hn hmore; omega
    refine invariant_of_rx hboards hresult hphase hop hlen hboard ?_ (hreal hphase) fun hread => ?_
    · show (s.eng.rxi + 1).toNat < rxN s.eng.cmdOp s.eng.cmdLen
      omega
    · show (raccAfter s.eng b).toNat < 2 ^ (8 * ((s.eng.rxi + 1).toNat - 1))
      rw [hsucc]
      exact raccAfter_lt (hracc hphase hread) hdata

theorem rxStep_keeps_invariant (b : Byte) {s : State} (hphase : s.eng.phase = .rx) (h : Invariant s) :
    Invariant (rxStep b s) := by
  have htraced : Invariant (traceByte .r b s) := h.of_eng_eq rfl rfl
  rw [rxStep_eq]
  split
  · rename_i hwrite; exact rxStepWrite_keeps_invariant b hphase hwrite htraced
  · rename_i hwrite; exact rxStepRead_keeps_invariant b hphase (by simpa using hwrite) htraced

theorem rxTimeoutStep_keeps_invariant {s : State} (hphase : s.eng.phase = .rx) (h : Invariant s) :
    Invariant (rxTimeoutStep s) := by
  obtain ⟨⟨hboards, -, -, -, hreal, -, hresult, -⟩, -⟩ := h
  unfold rxTimeoutStep
  split
  · rename_i hwrite; exact invariant_of_drain hboards hresult rfl (.inr ⟨hwrite, hreal hphase hwrite⟩)
  · exact invariant_of_idle hboards ⟨by simp, by simp⟩ rfl

theorem drainStep_keeps_invariant {s : State} (h : Invariant s) : Invariant (drainStep s) := by
  obtain ⟨⟨hboards, -⟩, -⟩ := h
  have hboards' : (drainStep s).cfg.nboards ≤ maxBoards := by
    cases hsim : s.eng.cmdSim <;> simpa [drainStep, hsim] using hboards
  exact invariant_of_idle hboards' ⟨fun _ => rfl, fun _ => rfl⟩ rfl

theorem resetStep_keeps_invariant {s : State} (h : Invariant s) : Invariant (resetStep s) := by
  obtain ⟨⟨hboards, -⟩, -⟩ := h
  exact invariant_of_idle hboards ⟨fun _ => rfl, fun _ => rfl⟩ rfl

theorem SrfeStep.keeps_invariant {s t : State} (hstep : SrfeStep s t) (h : Invariant s) : Invariant t := by
  cases hstep with
  | accept op c _ => exact accept_keeps_invariant op c h
  | tx _ phase _ sent => exact txStep_keeps_invariant phase sent h
  | rx u b taken =>
    obtain ⟨hphase, hcfg, heng, -⟩ := takeByte_eq_some taken
    exact rxStep_keeps_invariant b (heng ▸ hphase) (h.of_eng_eq hcfg heng)
  | timeout phase => exact rxTimeoutStep_keeps_invariant phase h
  | drain _ => exact drainStep_keeps_invariant h
  | reset => exact resetStep_keeps_invariant h

/-- Settles O52: the environment's moves leave what the invariant reads, and each of SRFE's steps keeps it. -/
theorem everyStepKeepsTheInvariant : Obligations.EveryStepKeepsTheInvariant := by
  intro s t h hstep
  refine step_keeps ?_ (fun _ _ hsrfe h => hsrfe.keeps_invariant h) hstep h
  rintro u v ⟨hcfg, heng, -⟩ h
  exact h.of_eng_eq hcfg heng

/-- Settles O53: SRFE is idle after reset, and its result registers hold no value and no acknowledgment. -/
theorem resetStateMeetsTheInvariant : Obligations.ResetStateMeetsTheInvariant :=
  invariant_of_idle (by decide) ⟨fun _ => rfl, fun _ => rfl⟩ rfl

end Sys2Proof.Machine
end

section
/-! SUPPORT. What runs at each port and in each phase, as equations; what SRFE's steps of R8 leave alone; and
the statements about one step that rest on these. -/

namespace Sys2Proof.Machine

/-! ### What runs at each port -/

theorem exec_cmdInstr (op : Op) (c : CmdFields) (s : State) : exec (cmdInstr op c) s = hostCommand op c s := by
  cases op <;> rfl

/-- A command term is run as its opcode with its fields (R101). -/
theorem eq_cmdInstr_of_isCommand {i : Instr} (h : isCommand i = true) : ∃ op c, i = cmdInstr op c := by
  cases i with
  | wrreg c => exact ⟨.wrreg, c, rfl⟩
  | rdreg c => exact ⟨.rdreg, c, rfl⟩
  | set c => exact ⟨.set, c, rfl⟩
  | get c => exact ⟨.get, c, rfl⟩
  | flush c => exact ⟨.flush, c, rfl⟩
  | reservedOp5 c => exact ⟨.reserved5, c, rfl⟩
  | reservedOp6 c => exact ⟨.reserved6, c, rfl⟩
  | reservedOp7 c => exact ⟨.reserved7, c, rfl⟩
  | _ => simp [isCommand] at h

/-- Running a reply term lets its bytes come in (R75; log 6). -/
theorem exec_of_encode_reply {i : Instr} {bytes : List Byte} (h : encode i = .reply bytes) (s : State) :
    exec i s = .next (deliverReply bytes s) := by
  cases i <;> cases h <;> rfl

theorem encode_of_decodeFrame {bytes : List Byte} {i : Instr} (h : decodeFrame bytes = .ok i) :
    encode i = .frame bytes := by
  unfold decodeFrame at h
  split at h <;> repeat' split at h
  all_goals cases h
  all_goals simp_all [encode]

theorem encode_of_decodeReply {bytes : List Byte} {i : Instr} (h : decodeReply bytes = .ok i) :
    encode i = .reply bytes := by
  unfold decodeReply at h
  split at h <;> repeat' split at h
  all_goals cases h
  all_goals simp_all [encode]

theorem runPortWord_of_decode {p : PortWord} {i : Instr} (h : decode p = .ok i) (s : State) :
    runPortWord p s = exec i s := by
  simp [runPortWord, h]

/-- Every word at the command port is a command (R100, R101). -/
theorem runPortWord_cmd (w : CmdWord) (s : State) :
    runPortWord (.cmd w) s = hostCommand (opOfCode (w.extractLsb' 58 3)) (cmdFieldsOf w) s :=
  exec_cmdInstr _ _ s

/-- Frame bytes of a row are offered to port TX; others do not go out (R104; log 7). -/
theorem runPortWord_frame (bytes : List Byte) :
    (∀ s, runPortWord (.frame bytes) s = transferFrame bytes s) ∨
      ∀ s, runPortWord (.frame bytes) s = .next s := by
  cases h : decode (.frame bytes) with
  | ok i =>
    exact .inl fun s => (runPortWord_of_decode h s).trans (exec_of_encode_frame (encode_of_decodeFrame h) s)
  | error e => exact .inr fun s => by simp [runPortWord, h]

/-- Reply bytes come in whether or not they are a row (R105). -/
theorem runPortWord_reply (bytes : List Byte) (s : State) :
    runPortWord (.reply bytes) s = .next (deliverReply bytes s) := by
  cases h : decode (.reply bytes) with
  | ok i => exact (runPortWord_of_decode h s).trans (exec_of_encode_reply (encode_of_decodeReply h) s)
  | error e => simp [runPortWord, h]

theorem hostCommand_of_busy {s : State} (h : busy s = true) (op : Op) (c : CmdFields) :
    hostCommand op c s = .next s := by
  have hbusy : s.eng.phase ≠ .idle := by simpa [busy] using h
  simp [hostCommand, hbusy]

theorem transferFrame_of_phase_ne {s : State} (h : s.eng.phase ≠ .tx) (bytes : List Byte) :
    transferFrame bytes s = .next s := by
  simp [transferFrame, pendingFrame, h]

/-- Outside phase RX reply bytes join their queue and no byte is taken (R75, R136). -/
theorem deliverReply_of_phase_ne {s : State} (h : s.eng.phase ≠ .rx) (bytes : List Byte) :
    deliverReply bytes s = offerReply bytes s := by
  have hphase : (offerReply bytes s).eng.phase ≠ .rx := by rwa [(offerReply_envMove bytes s).2.1]
  simp [deliverReply, rxTurn, takeByte_of_phase_ne hphase]

/-! ### What a step runs -/

theorem step_of_script_nil {s : State} (h : s.env.script = []) : step s = srfeTurn s := by
  simp [step, nextStep, h]

theorem step_of_script_cons {s : State} {e : EnvEvent} {rest : List EnvEvent} (h : s.env.script = e :: rest) :
    step s = applyEvent e (setScript rest s) := by
  simp [step, nextStep, h]

theorem srfeTurn_of_cmdPort {s : State} {w : CmdWord} (hphase : s.eng.phase = .idle)
    (hport : s.env.cmdPort = some w) : srfeTurn s = runPortWord (.cmd w) (setCmdPort none s) := by
  simp [srfeTurn, hphase, hport]

/-- An idle SRFE with no command at its port waits (R26, R260). -/
theorem srfeTurn_of_no_cmdPort {s : State} (hphase : s.eng.phase = .idle) (hport : s.env.cmdPort = none) :
    srfeTurn s = .next s := by
  simp [srfeTurn, hphase, hport]

theorem srfeTurn_of_tx {s : State} (hphase : s.eng.phase = .tx) :
    srfeTurn s = if txEnabled s then txStep s else .next s := by
  simp [srfeTurn, hphase]

theorem srfeTurn_of_rx {s : State} (hphase : s.eng.phase = .rx) : srfeTurn s = .next (rxTurn s) := by
  simp [srfeTurn, hphase]

theorem srfeTurn_of_drain {s : State} (hphase : s.eng.phase = .drain) : srfeTurn s = .next (drainStep s) := by
  simp [srfeTurn, hphase]

theorem rxTurn_eq_or_srfeStep (s : State) : rxTurn s = s ∨ SrfeStep s (rxTurn s) := by
  unfold rxTurn
  split
  · exact .inl rfl
  · rename_i b t hb; exact .inr (.rx s t b hb)

/-- While BUSY, SRFE's own turn is a wait or one of its steps; the environment does not move (R129). -/
theorem srfeTurn_of_busy {s t : State} (hbusy : busy s = true) (h : srfeTurn s = .next t) :
    t = s ∨ SrfeStep s t := by
  cases hphase : s.eng.phase with
  | idle => simp [busy, hphase] at hbusy
  | tx =>
    rw [srfeTurn_of_tx hphase] at h
    split at h
    · rename_i hen; exact .inr (.tx s t hphase hen h)
    · cases h; exact .inl rfl
  | rx => rw [srfeTurn_of_rx hphase] at h; cases h; exact rxTurn_eq_or_srfeStep s
  | drain => rw [srfeTurn_of_drain hphase] at h; cases h; exact .inr (.drain s hphase)

/-- Settles O34: the equations of a step at each port, with the decoded term. -/
theorem stepRunsTheDecodedInstruction : Obligations.StepRunsTheDecodedInstruction := by
  refine ⟨?_, ?_, ?_, ?_⟩
  · intro s w i hphase hscript hport hdecode
    rw [step_of_script_nil hscript, srfeTurn_of_cmdPort hphase hport, runPortWord_of_decode hdecode]
    rfl
  · intro s w rest i hphase hscript hport hdecode
    have hturn : srfeTurn (setScript rest s) = runPortWord (.cmd w) (setCmdPort none (setScript rest s)) :=
      srfeTurn_of_cmdPort hphase hport
    rw [step_of_script_cons hscript, applyEvent, hturn, runPortWord_of_decode hdecode]
    rfl
  · intro s bytes rest i hscript hdecode
    rw [step_of_script_cons hscript, applyEvent, runPortWord_of_decode hdecode]
    rfl
  · intro s bytes rest i hscript hdecode
    rw [step_of_script_cons hscript, applyEvent, runPortWord_of_decode hdecode]
    rfl

/-- Settles O29: the guard under which a frame starts to go out fails in both cases. -/
theorem otherFramesDoNotGoOut : Obligations.OtherFramesDoNotGoOut := by
  intro s i bytes hi hnot
  rw [exec_of_encode_frame hi]
  rcases transferFrame_eq bytes s with ⟨hpending, hen, -⟩ | ⟨-, hrun⟩
  · rcases hnot with hnot | ⟨hreal, hwait⟩
    · exact absurd hpending hnot
    · simp [txEnabled, hreal, hwait] at hen
  · exact hrun

/-- Settles O33: the reply joins its queue and no byte is taken. -/
theorem replyOutsideRxStaysPending : Obligations.ReplyOutsideRxStaysPending := by
  intro s i bytes hi hphase
  rw [exec_of_encode_reply hi, deliverReply_of_phase_ne hphase, offerReply]
  cases busy s && s.eng.cmdSim <;> rfl

/-- Settles O35: the step is `resetStep`, which writes the engine of R44 and nothing else. -/
theorem resetStepClearsTheEngine : Obligations.ResetStepClearsTheEngine := by
  intro s rest hscript
  exact ⟨resetStep (setScript rest s), step_of_script_cons hscript, rfl, rfl,
    by simp [Engine.reset, opCode, cmdReady, busy]⟩

/-- Settles O38: the port in use is the one whose timeout is honoured. -/
theorem timeoutEndsTheReply : Obligations.TimeoutEndsTheReply := by
  intro s e rest hphase hscript hport
  have hstep : step s = .next (rxTimeoutStep (setScript rest s)) := by
    rw [step_of_script_cons hscript]
    rcases hport with ⟨rfl, hsim⟩ | ⟨rfl, hsim⟩ <;> simp [applyEvent, rxReady, simReady, hphase, hsim]
  exact hstep

/-- Settles O40: each clause is the equation of its event. -/
theorem eventsOutsideTheirPhaseAreIgnored : Obligations.EventsOutsideTheirPhaseAreIgnored := by
  refine ⟨?_, ?_, ?_, ?_, fun s h => takeByte_of_phase_ne h⟩
  · intro s rest hscript hready
    have hready : rxReady (setScript rest s) = false := hready
    rw [step_of_script_cons hscript, applyEvent, hready]
    rfl
  · intro s rest hscript hready
    have hready : simReady (setScript rest s) = false := hready
    rw [step_of_script_cons hscript, applyEvent, hready]
    rfl
  · intro s b rest hscript
    exact step_of_script_cons hscript
  · intro s b rest hscript
    exact step_of_script_cons hscript

/-! ### What SRFE's steps leave alone -/

/-- The parameters and what the environment drives are the same: the command port, the schedule and the pins. -/
abbrev SameInputs (s t : State) : Prop :=
  t.cfg = s.cfg ∧ t.env.cmdPort = s.env.cmdPort ∧ t.env.script = s.env.script ∧
    t.env.simMode = s.env.simMode ∧ t.env.linkOk = s.env.linkOk ∧ t.env.txReady = s.env.txReady

theorem accept_sameInputs (op : Op) (c : CmdFields) (s : State) : SameInputs s (accept op c s) := by
  rcases accept_cases op c s with ⟨st, -, h⟩ | ⟨a, l, -, h⟩ <;> simp [SameInputs, h]

theorem txAdvance_sameInputs (s : State) : SameInputs s (txAdvance s) := by
  rcases txAdvance_cases s with ⟨-, h⟩ | ⟨-, -, -, h⟩ | ⟨-, -, h⟩ <;> simp [SameInputs, h]

theorem txStep_sameInputs {s t : State} (h : txStep s = .next t) : SameInputs s t := by
  obtain ⟨b, -, rfl⟩ := txStep_next h
  simpa [SameInputs] using txAdvance_sameInputs (byteBuilt b s)

theorem rxStep_sameInputs (b : Byte) (s : State) : SameInputs s (rxStep b s) := by
  rw [rxStep_eq]
  split
  · simp [SameInputs]
  · rcases rxStepRead_cases b (traceByte .r b s) with ⟨-, h⟩ | ⟨-, h⟩ <;> simp [SameInputs, h]

theorem rxTimeoutStep_sameInputs (s : State) : SameInputs s (rxTimeoutStep s) := by
  unfold rxTimeoutStep; split <;> simp [SameInputs]

theorem drainStep_sameInputs (s : State) : SameInputs s (drainStep s) := by
  cases hsim : s.eng.cmdSim <;> simp [SameInputs, drainStep, hsim]

/-- SRFE drives none of its inputs and changes no parameter (R33 to R37, R46). -/
theorem SrfeStep.sameInputs {s t : State} (h : SrfeStep s t) : SameInputs s t := by
  cases h with
  | accept op c _ => exact accept_sameInputs op c s
  | tx _ _ _ sent => exact txStep_sameInputs sent
  | rx u b taken =>
    obtain ⟨-, hcfg, -, hsource⟩ := takeByte_eq_some taken
    obtain ⟨hcfg', hport, hscript, hsim, hlink, htx⟩ := rxStep_sameInputs b u
    rcases hsource with ⟨-, rest, -, henv⟩ | ⟨-, rest, -, henv⟩ <;>
      rw [henv] at hport hscript hsim hlink htx <;>
      exact ⟨hcfg'.trans hcfg, hport, hscript, hsim, hlink, htx⟩
  | timeout _ => exact rxTimeoutStep_sameInputs s
  | drain _ => exact drainStep_sameInputs s
  | reset => exact ⟨rfl, rfl, rfl, rfl, rfl, rfl⟩

/-- Settles O18: while BUSY no command is taken, and SRFE's own step leaves the command port. -/
theorem busyCommandIsNotTaken : Obligations.BusyCommandIsNotTaken := by
  constructor
  · intro s i hbusy hcommand
    obtain ⟨op, c, rfl⟩ := eq_cmdInstr_of_isCommand hcommand
    rw [exec_cmdInstr, hostCommand_of_busy hbusy]
  · intro s t hbusy hscript hstep
    rw [step_of_script_nil hscript] at hstep
    rcases srfeTurn_of_busy hbusy hstep with rfl | hsrfe
    · rfl
    · obtain ⟨-, hport, -⟩ := hsrfe.sameInputs
      exact hport

/-- Settles O50: neither the environment's moves nor SRFE's steps change a parameter. -/
theorem configurationNeverChanges : Obligations.ConfigurationNeverChanges := by
  intro s t hstep
  exact step_keeps (P := fun u => u.cfg = s.cfg) (fun _ _ hmove h => hmove.1.trans h)
    (fun _ _ hsrfe h => hsrfe.sameInputs.1.trans h) hstep rfl

/-! ### Bytes -/

/-- Settles O45: a step adds at most one byte, at the end. -/
theorem wireAndTraceOnlyGrow : Obligations.WireAndTraceOnlyGrow := by
  intro s t hstep
  rcases oneStepMovesAtMostOneByte s t hstep with ⟨htrace, hwire⟩ | ⟨b, htrace, hwire⟩ | ⟨b, htrace, hwire⟩
  · exact ⟨⟨[], by simp [hwire]⟩, ⟨[], by simp [htrace]⟩⟩
  · refine ⟨?_, ⟨_, htrace⟩⟩
    cases hsim : s.eng.cmdSim
    · exact ⟨[b], by simp [hwire, hsim]⟩
    · exact ⟨[], by simp [hwire, hsim]⟩
  · exact ⟨⟨[], by simp [hwire]⟩, ⟨_, htrace⟩⟩

/-- Of SRFE's steps only the `TxStep` of a real command sends a byte, and the transport accepts it (R37,
R131). -/
theorem SrfeStep.sends {s t : State} (h : SrfeStep s t) (hwire : t.env.wireOut ≠ s.env.wireOut) :
    s.eng.phase = .tx ∧ s.eng.cmdSim = false ∧ s.env.txReady = true := by
  cases h with
  | accept op c _ => exact absurd (accept_movesNoByte op c s).2 hwire
  | tx _ phase enabled sent =>
    obtain ⟨b, -, hb⟩ := txStep_movesFrameByte sent
    cases hsim : s.eng.cmdSim
    · exact ⟨phase, rfl, by simpa [txEnabled, hsim] using enabled⟩
    · simp [hb, hsim] at hwire
  | rx u b taken =>
    obtain ⟨-, -, -, hsource⟩ := takeByte_eq_some taken
    rw [(rxStep_movesResponseByte b u).2] at hwire
    rcases hsource with ⟨-, rest, -, henv⟩ | ⟨-, rest, -, henv⟩ <;> simp [henv] at hwire
  | timeout _ => exact absurd (rxTimeoutStep_movesNoByte s).2 hwire
  | drain _ => exact absurd (drainStep_movesNoByte s).2 hwire
  | reset => exact absurd rfl hwire

/-- Settles O47: the environment sends nothing, and what it moves ahead of SRFE's step leaves the pins. -/
theorem bytesGoOutOnlyWhenAccepted : Obligations.BytesGoOutOnlyWhenAccepted := by
  intro s t hstep hwire
  rcases step_cases hstep with hmove | ⟨u, hmove, hpins, rfl | hsrfe⟩
  · exact absurd hmove.movesNoByte.2 hwire
  · exact absurd hmove.movesNoByte.2 hwire
  · obtain ⟨hphase, hreal, hready⟩ := hsrfe.sends (by rwa [hmove.movesNoByte.2])
    obtain ⟨-, heng, -⟩ := hmove
    obtain ⟨-, -, htx⟩ := hpins
    rw [heng] at hphase hreal
    exact ⟨by simp [txValid, hphase, hreal], htx.symm.trans hready⟩

/-! ### Pins -/

/-- `TxStep` where R127 lists a byte: the converse of `txStep_next`. -/
theorem txStep_of_txByteAt {s : State} {b : Byte} (h : txByteAt s.eng s.eng.txi.toNat = some b) :
    txStep s = .next (txAdvance (byteBuilt b s)) := by
  rw [txStep, h]

/-- Both pins driven to these values (R33, R34). -/
abbrev drivePins (sim link : Bool) (s : State) : State := setSimMode sim (setLinkOk link s)

section
variable (sim link : Bool) (s : State)

theorem byteBuilt_drivePins (b : Byte) :
    byteBuilt b (drivePins sim link s) = drivePins sim link (byteBuilt b s) := by
  simp only [byteBuilt, emitByte, apply_ite (drivePins sim link)]; rfl

theorem txAdvance_drivePins : txAdvance (drivePins sim link s) = drivePins sim link (txAdvance s) := by
  simp only [txAdvance, apply_ite (drivePins sim link)]; rfl

theorem txStep_drivePins {t : State} (h : txStep s = .next t) :
    txStep (drivePins sim link s) = .next (drivePins sim link t) := by
  obtain ⟨b, hb, rfl⟩ := txStep_next h
  rw [← txAdvance_drivePins, ← byteBuilt_drivePins]
  exact txStep_of_txByteAt hb

theorem takeByte_drivePins : takeByte (drivePins sim link s) =
    (takeByte s).map fun x => (x.1, drivePins sim link x.2) := by
  unfold takeByte
  by_cases hphase : s.eng.phase = .rx
  · cases hsim : s.eng.cmdSim
    · cases hq : s.env.rxq <;> simp [hphase, hsim, hq, setSimMode, setLinkOk]
    · cases hq : s.env.simq <;> simp [hphase, hsim, hq, setSimMode, setLinkOk]
  · simp [hphase]

theorem rxStep_drivePins (b : Byte) : rxStep b (drivePins sim link s) = drivePins sim link (rxStep b s) := by
  simp only [rxStep, rxStepRead, apply_ite (drivePins sim link)]; rfl

theorem rxTurn_drivePins : rxTurn (drivePins sim link s) = drivePins sim link (rxTurn s) := by
  rw [rxTurn, takeByte_drivePins, rxTurn]
  cases takeByte s with
  | none => rfl
  | some x => exact rxStep_drivePins sim link x.2 x.1

theorem drainStep_drivePins : drainStep (drivePins sim link s) = drivePins sim link (drainStep s) := by
  cases hsim : s.eng.cmdSim <;> simp only [drainStep, setSimMode_eng, setLinkOk_eng, hsim] <;> rfl

end

/-- Settles O44: each step SRFE takes by itself while BUSY commutes with driving the pins. -/
theorem pinsAreReadOnlyAtAccept : Obligations.PinsAreReadOnlyAtAccept := by
  intro s t sim link hbusy hscript hstep
  have hscript' : (drivePins sim link s).env.script = [] := hscript
  rw [step_of_script_nil hscript] at hstep
  rw [step_of_script_nil hscript']
  cases hphase : s.eng.phase with
  | idle => simp [busy, hphase] at hbusy
  | tx =>
    have hphase' : (drivePins sim link s).eng.phase = .tx := hphase
    rw [srfeTurn_of_tx hphase] at hstep
    rw [srfeTurn_of_tx hphase']
    cases hen : txEnabled s with
    | true =>
      rw [hen] at hstep
      exact (if_pos hen).trans (txStep_drivePins sim link s hstep)
    | false =>
      rw [hen] at hstep
      cases hstep
      exact if_neg (by simpa [txEnabled] using hen)
  | rx =>
    have hphase' : (drivePins sim link s).eng.phase = .rx := hphase
    rw [srfeTurn_of_rx hphase] at hstep
    cases hstep
    rw [srfeTurn_of_rx hphase', rxTurn_drivePins]
  | drain =>
    have hphase' : (drivePins sim link s).eng.phase = .drain := hphase
    rw [srfeTurn_of_drain hphase] at hstep
    cases hstep
    rw [srfeTurn_of_drain hphase', drainStep_drivePins]

end Sys2Proof.Machine
end

section
/-! SUPPORT. A step that is not a `Reset`; the steps of an SRFE at rest; steps that always have a next state;
and the statements on these. -/

namespace Sys2Proof.Machine

/-! ### A step that is not a `Reset` -/

/-- One of SRFE's steps of R8 in the course of a command: all of `SrfeStep` but `Reset`. -/
inductive CommandStep : State → State → Prop
  | accept (s : State) (op : Op) (c : CmdFields) (idle : s.eng.phase = .idle) : CommandStep s (accept op c s)
  | tx (s t : State) (phase : s.eng.phase = .tx) (enabled : txEnabled s = true) (sent : txStep s = .next t) :
      CommandStep s t
  | rx (s t : State) (b : Byte) (taken : takeByte s = some (b, t)) : CommandStep s (rxStep b t)
  | timeout (s : State) (phase : s.eng.phase = .rx) : CommandStep s (rxTimeoutStep s)
  | drain (s : State) (phase : s.eng.phase = .drain) : CommandStep s (drainStep s)

theorem srfeStep_iff {s t : State} : SrfeStep s t ↔ CommandStep s t ∨ t = resetStep s := by
  constructor
  · intro h
    cases h with
    | accept op c idle => exact .inl (.accept s op c idle)
    | tx _ phase enabled sent => exact .inl (.tx s t phase enabled sent)
    | rx u b taken => exact .inl (.rx s u b taken)
    | timeout phase => exact .inl (.timeout s phase)
    | drain phase => exact .inl (.drain s phase)
    | reset => exact .inr rfl
  · rintro (h | rfl)
    · cases h with
      | accept op c idle => exact .accept s op c idle
      | tx _ phase enabled sent => exact .tx s t phase enabled sent
      | rx u b taken => exact .rx s u b taken
      | timeout phase => exact .timeout s phase
      | drain phase => exact .drain s phase
    · exact .reset s

/-- The environment moves, and then SRFE may take one step of a command. -/
abbrev Proceeds (s t : State) : Prop := ∃ u, EnvMove s u ∧ (t = u ∨ CommandStep u t)

theorem EnvMove.proceeds {s t : State} (h : EnvMove s t) : Proceeds s t := ⟨t, h, .inl rfl⟩

theorem CommandStep.proceeds {s t : State} (h : CommandStep s t) : Proceeds s t := ⟨s, .refl s, .inr h⟩

theorem Proceeds.after_envMove {s u t : State} (h : Proceeds u t) (hmove : EnvMove s u) : Proceeds s t := by
  obtain ⟨v, hv, h⟩ := h
  exact ⟨v, hmove.trans hv, h⟩

theorem hostCommand_proceeds {op : Op} {c : CmdFields} {s t : State} (h : hostCommand op c s = .next t) :
    Proceeds s t := by
  simp only [hostCommand, Host.Outcome.next.injEq] at h
  subst h
  split
  · rename_i hidle; exact (CommandStep.accept s op c hidle).proceeds
  · exact (EnvMove.refl s).proceeds

theorem transferFrame_proceeds {bytes : List Byte} {s t : State} (h : transferFrame bytes s = .next t) :
    Proceeds s t := by
  rcases transferFrame_eq bytes s with ⟨hpending, hen, hrun⟩ | ⟨-, hrun⟩ <;> rw [hrun] at h
  · exact (CommandStep.tx s t (pendingFrame_eq_some hpending).1 hen h).proceeds
  · cases h; exact (EnvMove.refl s).proceeds

theorem rxTurn_proceeds (s : State) : Proceeds s (rxTurn s) := by
  unfold rxTurn
  split
  · exact (EnvMove.refl s).proceeds
  · rename_i b t hb; exact (CommandStep.rx s t b hb).proceeds

theorem runPortWord_proceeds {p : PortWord} {s t : State} (h : runPortWord p s = .next t) : Proceeds s t := by
  cases p with
  | cmd w => rw [runPortWord_cmd] at h; exact hostCommand_proceeds h
  | frame bytes =>
    rcases runPortWord_frame bytes with hrun | hrun <;> rw [hrun] at h
    · exact transferFrame_proceeds h
    · cases h; exact (EnvMove.refl s).proceeds
  | reply bytes =>
    rw [runPortWord_reply] at h
    cases h
    exact (rxTurn_proceeds _).after_envMove (offerReply_envMove bytes s)

theorem srfeTurn_proceeds {s t : State} (h : srfeTurn s = .next t) : Proceeds s t := by
  cases hphase : s.eng.phase with
  | idle =>
    cases hport : s.env.cmdPort with
    | none => rw [srfeTurn_of_no_cmdPort hphase hport] at h; cases h; exact (EnvMove.refl s).proceeds
    | some w =>
      rw [srfeTurn_of_cmdPort hphase hport] at h
      exact (runPortWord_proceeds h).after_envMove (setCmdPort_envMove none s)
  | tx =>
    rw [srfeTurn_of_tx hphase] at h
    split at h
    · rename_i hen; exact (CommandStep.tx s t hphase hen h).proceeds
    · cases h; exact (EnvMove.refl s).proceeds
  | rx => rw [srfeTurn_of_rx hphase] at h; cases h; exact rxTurn_proceeds s
  | drain => rw [srfeTurn_of_drain hphase] at h; cases h; exact (CommandStep.drain s hphase).proceeds

theorem setSimMode_envMove (v : Bool) (s : State) : EnvMove s (setSimMode v s) :=
  envMove_of_queues rfl rfl rfl rfl rfl rfl rfl rfl

theorem setLinkOk_envMove (v : Bool) (s : State) : EnvMove s (setLinkOk v s) :=
  envMove_of_queues rfl rfl rfl rfl rfl rfl rfl rfl

theorem setTxReady_envMove (v : Bool) (s : State) : EnvMove s (setTxReady v s) :=
  envMove_of_queues rfl rfl rfl rfl rfl rfl rfl rfl

/-- A timeout on a port in use is a step of the command; on another it is ignored (R38, R40). -/
theorem timeout_proceeds {s : State} {ready : Bool} (h : ready = true → s.eng.phase = .rx) :
    Proceeds s (if ready then rxTimeoutStep s else s) := by
  cases ready with
  | true => exact (CommandStep.timeout s (h rfl)).proceeds
  | false => exact (EnvMove.refl s).proceeds

theorem applyEvent_proceeds {e : EnvEvent} {s t : State} (hreset : e ≠ .reset)
    (h : applyEvent e s = .next t) : Proceeds s t := by
  cases e with
  | turn => exact srfeTurn_proceeds h
  | command w => cases h; exact (setCmdPort_envMove (some w) s).proceeds
  | withdraw => cases h; exact (setCmdPort_envMove none s).proceeds
  | arrive b => cases h; exact (arriveRx_envMove [b] s).proceeds
  | canned b => cases h; exact (arriveSim_envMove [b] s).proceeds
  | rxTimeout => cases h; exact timeout_proceeds fun hready => by simp_all [rxReady]
  | simTimeout => cases h; exact timeout_proceeds fun hready => by simp_all [simReady]
  | simMode v => cases h; exact (setSimMode_envMove v s).proceeds
  | linkOk v => cases h; exact (setLinkOk_envMove v s).proceeds
  | txReady v => cases h; exact (setTxReady_envMove v s).proceeds
  | reset => exact absurd rfl hreset
  | frame bytes => exact runPortWord_proceeds h
  | reply bytes => exact runPortWord_proceeds h

/-- Everything a step can do where no `Reset` comes next (R8, R260). -/
theorem step_proceeds {s t : State} (hreset : s.env.script.head? ≠ some .reset) (h : step s = .next t) :
    Proceeds s t := by
  cases hscript : s.env.script with
  | nil => rw [step_of_script_nil hscript] at h; exact srfeTurn_proceeds h
  | cons e rest =>
    rw [step_of_script_cons hscript] at h
    have hne : e ≠ .reset := by simpa [hscript] using hreset
    exact (applyEvent_proceeds hne h).after_envMove (setScript_envMove rest s)

/-! ### The result registers -/

/-- No `done` pulse and the four result registers as they were, or one `done` pulse and SRFE idle (R36,
R137). -/
abbrev WritesResultsAtDone (s t : State) : Prop :=
  (t.env.doneCount = s.env.doneCount ∧ t.eng.status = s.eng.status ∧ t.eng.ack = s.eng.ack ∧
    t.eng.rdata = s.eng.rdata ∧ t.eng.rvalid = s.eng.rvalid) ∨
  (t.env.doneCount = s.env.doneCount + 1 ∧ t.eng.phase = .idle)

theorem accept_writesResultsAtDone (op : Op) (c : CmdFields) (s : State) :
    WritesResultsAtDone s (accept op c s) := by
  rcases accept_cases op c s with ⟨st, -, h⟩ | ⟨a, l, -, h⟩ <;> rw [h]
  · exact .inr ⟨rfl, rfl⟩
  · exact .inl ⟨rfl, rfl, rfl, rfl, rfl⟩

theorem txAdvance_writesResultsAtDone (s : State) : WritesResultsAtDone s (txAdvance s) := by
  rcases txAdvance_cases s with ⟨-, h⟩ | ⟨-, -, -, h⟩ | ⟨-, -, h⟩ <;> rw [h]
  · exact .inl ⟨rfl, rfl, rfl, rfl, rfl⟩
  · exact .inr ⟨rfl, rfl⟩
  · exact .inl ⟨rfl, rfl, rfl, rfl, rfl⟩

theorem txStep_writesResultsAtDone {s t : State} (h : txStep s = .next t) : WritesResultsAtDone s t := by
  obtain ⟨b, -, rfl⟩ := txStep_next h
  simpa [WritesResultsAtDone] using txAdvance_writesResultsAtDone (byteBuilt b s)

theorem rxStep_writesResultsAtDone (b : Byte) (s : State) : WritesResultsAtDone s (rxStep b s) := by
  rw [rxStep_eq]
  split
  · exact .inl ⟨rfl, rfl, rfl, rfl, rfl⟩
  · rcases rxStepRead_cases b (traceByte .r b s) with ⟨-, h⟩ | ⟨-, h⟩ <;> rw [h]
    · exact .inr ⟨rfl, rfl⟩
    · exact .inl ⟨rfl, rfl, rfl, rfl, rfl⟩

theorem rxTimeoutStep_writesResultsAtDone (s : State) : WritesResultsAtDone s (rxTimeoutStep s) := by
  unfold rxTimeoutStep
  split
  · exact .inl ⟨rfl, rfl, rfl, rfl, rfl⟩
  · exact .inr ⟨rfl, rfl⟩

theorem drainStep_writesResultsAtDone (s : State) : WritesResultsAtDone s (drainStep s) := by
  refine .inr ⟨?_, rfl⟩
  cases hsim : s.eng.cmdSim <;> simp [drainStep, hsim]

theorem CommandStep.writesResultsAtDone {s t : State} (h : CommandStep s t) : WritesResultsAtDone s t := by
  cases h with
  | accept op c _ => exact accept_writesResultsAtDone op c s
  | tx _ _ _ sent => exact txStep_writesResultsAtDone sent
  | rx u b taken =>
    obtain ⟨-, -, heng, hsource⟩ := takeByte_eq_some taken
    have hstep := rxStep_writesResultsAtDone b u
    rw [WritesResultsAtDone, heng] at hstep
    rcases hsource with ⟨-, rest, -, henv⟩ | ⟨-, rest, -, henv⟩ <;> rwa [henv] at hstep
  | timeout _ => exact rxTimeoutStep_writesResultsAtDone s
  | drain _ => exact drainStep_writesResultsAtDone s

/-- Settles O42: the environment's moves touch neither, and each step of a command does one of the two. -/
theorem resultsChangeOnlyAtDoneOrReset : Obligations.ResultsChangeOnlyAtDoneOrReset := by
  intro s t hreset hstep
  obtain ⟨u, ⟨-, heng, -, -, hdone, -⟩, h⟩ := step_proceeds hreset hstep
  have hu : WritesResultsAtDone u t := by
    rcases h with rfl | h
    · exact .inl ⟨rfl, rfl, rfl, rfl, rfl⟩
    · exact h.writesResultsAtDone
  rwa [WritesResultsAtDone, heng, hdone] at hu

/-! ### SRFE at rest -/

/-- SRFE is idle after `k` `done` pulses, with no command at its port or to come (R266). -/
abbrev AtRest (k : Nat) (s : State) : Prop :=
  s.env.doneCount = k ∧ s.eng.phase = .idle ∧ s.env.cmdPort = none ∧ ∀ w, EnvEvent.command w ∉ s.env.script

theorem srfeTurn_of_atRest {k : Nat} {s : State} (h : AtRest k s) : srfeTurn s = .next s := by
  obtain ⟨-, hidle, hport, -⟩ := h
  exact srfeTurn_of_no_cmdPort hidle hport

theorem AtRest.after_offerReply {k : Nat} {s : State} (bytes : List Byte) (h : AtRest k s) :
    AtRest k (offerReply bytes s) := by
  unfold offerReply; split <;> exact h

/-- At rest only a command could start anything. -/
theorem AtRest.after_applyEvent {k : Nat} {e : EnvEvent} {s t : State} (h : AtRest k s)
    (he : ∀ w, e ≠ .command w) (hstep : applyEvent e s = .next t) : AtRest k t := by
  have ⟨hdone, hidle, hport, hcommands⟩ := h
  cases e with
  | turn =>
    rw [applyEvent, srfeTurn_of_atRest h] at hstep
    cases hstep; exact h
  | command w => exact absurd rfl (he w)
  | withdraw => cases hstep; exact ⟨hdone, hidle, rfl, hcommands⟩
  | rxTimeout =>
    have hready : rxReady s = false := by simp [rxReady, hidle]
    rw [applyEvent, hready] at hstep
    cases hstep; exact h
  | simTimeout =>
    have hready : simReady s = false := by simp [simReady, hidle]
    rw [applyEvent, hready] at hstep
    cases hstep; exact h
  | reset => cases hstep; exact ⟨hdone, rfl, hport, hcommands⟩
  | frame bytes =>
    have hwait := transferFrame_of_phase_ne (s := s) (by simp [hidle]) bytes
    rcases runPortWord_frame bytes with hrun | hrun
    · rw [applyEvent, hrun, hwait] at hstep; cases hstep; exact h
    · rw [applyEvent, hrun] at hstep; cases hstep; exact h
  | reply bytes =>
    rw [applyEvent, runPortWord_reply, deliverReply_of_phase_ne (by simp [hidle])] at hstep
    cases hstep; exact h.after_offerReply bytes
  | arrive _ | canned _ | simMode _ | linkOk _ | txReady _ => cases hstep; exact h

theorem AtRest.after_step {k : Nat} {s t : State} (h : AtRest k s) (hstep : step s = .next t) : AtRest k t := by
  cases hscript : s.env.script with
  | nil =>
    rw [step_of_script_nil hscript, srfeTurn_of_atRest h] at hstep
    cases hstep; exact h
  | cons e rest =>
    obtain ⟨hdone, hidle, hport, hcommands⟩ := h
    rw [hscript] at hcommands
    rw [step_of_script_cons hscript] at hstep
    have hrest : AtRest k (setScript rest s) :=
      ⟨hdone, hidle, hport, fun w hw => hcommands w (List.mem_cons_of_mem e hw)⟩
    exact hrest.after_applyEvent (fun w he => hcommands w (he ▸ List.mem_cons_self)) hstep

/-- Settles O49: rest is kept by every step, so by every run. -/
theorem runStaysOver : Obligations.RunStaysOver := by
  intro k n s t u ⟨hdone, hidle⟩ hport hcommands hrun
  obtain ⟨hdone', hidle', -⟩ : AtRest (s.env.doneCount + k) u :=
    run_keeps (fun _ _ hstep h => h.after_step hstep) hrun ⟨hdone, hidle, hport, hcommands⟩
  exact ⟨hdone', hidle'⟩

/-! ### Steps that always have a next state -/

theorem transferFrame_isNext {s : State} (h : s.eng.phase = .tx → ∃ t, txStep s = .next t)
    (bytes : List Byte) : ∃ t, transferFrame bytes s = .next t := by
  rcases transferFrame_eq bytes s with ⟨hpending, -, hrun⟩ | ⟨-, hrun⟩ <;> rw [hrun]
  · exact h (pendingFrame_eq_some hpending).1
  · exact ⟨s, rfl⟩

theorem runPortWord_isNext {s : State} (h : s.eng.phase = .tx → ∃ t, txStep s = .next t) (p : PortWord) :
    ∃ t, runPortWord p s = .next t := by
  cases p with
  | cmd w => exact ⟨_, runPortWord_cmd w s⟩
  | frame bytes =>
    rcases runPortWord_frame bytes with hrun | hrun <;> rw [hrun]
    · exact transferFrame_isNext h bytes
    · exact ⟨s, rfl⟩
  | reply bytes => exact ⟨_, runPortWord_reply bytes s⟩

theorem srfeTurn_isNext {s : State} (h : s.eng.phase = .tx → ∃ t, txStep s = .next t) :
    ∃ t, srfeTurn s = .next t := by
  cases hphase : s.eng.phase with
  | idle =>
    cases hport : s.env.cmdPort with
    | none => exact ⟨s, srfeTurn_of_no_cmdPort hphase hport⟩
    | some w =>
      rw [srfeTurn_of_cmdPort hphase hport, runPortWord_cmd]
      exact ⟨_, rfl⟩
  | tx =>
    rw [srfeTurn_of_tx hphase]
    split
    · exact h hphase
    · exact ⟨s, rfl⟩
  | rx => exact ⟨_, srfeTurn_of_rx hphase⟩
  | drain => exact ⟨_, srfeTurn_of_drain hphase⟩

/-- A `TxStep` is the only step that can stop (log 14), so a step stops only where its `TxStep` does. -/
theorem applyEvent_isNext {s : State} (h : s.eng.phase = .tx → ∃ t, txStep s = .next t) (e : EnvEvent) :
    ∃ t, applyEvent e s = .next t := by
  cases e with
  | turn => exact srfeTurn_isNext h
  | frame bytes => exact runPortWord_isNext h (.frame bytes)
  | reply bytes => exact runPortWord_isNext h (.reply bytes)
  | _ => exact ⟨_, rfl⟩

/-- R45 (a) and (b) put TXI inside the frame of a register command, where R127 lists a byte. -/
theorem txStep_isNext_of_inv {s : State} (h : InvR45 s) (hphase : s.eng.phase = .tx) :
    ∃ t, txStep s = .next t := by
  obtain ⟨-, hlatch, htxi, -⟩ := h
  obtain ⟨hop, -, -⟩ := hlatch (.inl hphase)
  obtain ⟨b, hb⟩ := txByteAt_isSome s.eng s.eng.txi.toNat (by simpa [isRegisterOp] using hop) (htxi hphase)
  exact ⟨_, txStep_of_txByteAt hb⟩

theorem step_isNext_of_inv {s : State} (h : InvR45 s) : ∃ t, step s = .next t := by
  cases hscript : s.env.script with
  | nil => rw [step_of_script_nil hscript]; exact srfeTurn_isNext (txStep_isNext_of_inv h)
  | cons e rest =>
    have hrest : InvR45 (setScript rest s) := h
    rw [step_of_script_cons hscript]
    exact applyEvent_isNext (txStep_isNext_of_inv hrest) e

/-- Settles O54: there is a next state, and `step` is a function. -/
theorem invariantStatesNeverStop : Obligations.InvariantStatesNeverStop := by
  intro s h
  obtain ⟨t, ht⟩ := step_isNext_of_inv h
  refine ⟨t, ht, fun u hu => ?_⟩
  rw [ht] at hu
  cases hu
  rfl

end Sys2Proof.Machine
end

section
/-! SUPPORT. Two machines that differ in CMD_OP and SHR alone run side by side: while BUSY the opcodes are of
one kind, and a write has the same SHR in both. The statement that GET goes the way of RDREG rests on it
(R185). -/

namespace Sys2Proof.Machine

/-! ### The relation -/

/-- The engine with another CMD_OP and SHR. -/
def Engine.relatch (e : Engine) (op : Op) (w : BitVec 32) : Engine := { e with cmdOp := op, shr := w }

/-- The state with another CMD_OP and SHR. -/
def relatch (op : Op) (w : BitVec 32) (s : State) : State := { s with eng := s.eng.relatch op w }

/-- The opcodes are both of write kind or not, both of read kind or not, both FLUSH or not: all that SRFE asks
of CMD_OP once a command is latched (R121, R135). -/
abbrev SameKind (op op' : Op) : Prop :=
  isWriteKind op' = isWriteKind op ∧ isReadKind op' = isReadKind op ∧ (op' = .flush ↔ op = .flush)

/-- The engine `e` goes the same way with CMD_OP `op` and SHR `w`. SHR must be the same where it is sent, and
also where `same` asks for it. In phase IDLE nothing reads either register. -/
abbrev Fits (same : Prop) (e : Engine) (op : Op) (w : BitVec 32) : Prop :=
  (same → w = e.shr) ∧
    (e.phase ≠ .idle → SameKind e.cmdOp op ∧ (isWriteKind e.cmdOp = true → w = e.shr))

/-- `u` is `t` with another CMD_OP and SHR with which it goes the same way. -/
abbrev Twin (same : Prop) (t u : State) : Prop := ∃ op w, u = relatch op w t ∧ Fits same t.eng op w

/-- Two outcomes of a step: twins, or the same stop. -/
inductive TwinResult (same : Prop) : Result → Result → Prop
  | next {t u : State} (h : Twin same t u) : TwinResult same (.next t) (.next u)
  | fault (f : Fault) : TwinResult same (.fault f) (.fault f)

theorem SameKind.refl (op : Op) : SameKind op op := ⟨rfl, rfl, Iff.rfl⟩

theorem Twin.refl (same : Prop) (s : State) : Twin same s s :=
  ⟨s.eng.cmdOp, s.eng.shr, rfl, fun _ => rfl, fun _ => ⟨.refl _, fun _ => rfl⟩⟩

/-! ### What the engine computes does not tell twins apart -/

theorem frameLen_of_sameKind {op op' : Op} (h : SameKind op op') (len : BitVec 2) :
    frameLen op' len = frameLen op len := by
  rw [frameLen, h.1, frameLen]

section
variable {e : Engine} {op : Op} {w : BitVec 32} (hkind : SameKind e.cmdOp op)
include hkind

theorem txByteAt_relatch (hshr : isWriteKind e.cmdOp = true → w = e.shr) (i : Nat) :
    txByteAt (e.relatch op w) i = txByteAt e i := by
  obtain ⟨hwrite, hread, -⟩ := hkind
  cases hw : isWriteKind e.cmdOp
  · simp [txByteAt, Engine.relatch, hwrite, hread, hw]
  · simp [txByteAt, Engine.relatch, hwrite, hw, hshr hw]

theorem cksAfter_relatch (b : Byte) : cksAfter (e.relatch op w) b = cksAfter e b := by
  simp [cksAfter, Engine.relatch, frameLen_of_sameKind hkind]

theorem shrAfter_relatch (hshr : w = e.shr) : shrAfter (e.relatch op w) = shrAfter e := by
  simp [shrAfter, Engine.relatch, hkind.1, hshr]

end

/-! ### SRFE's steps take twins to twins -/

section
variable {same : Prop} {s : State} {op : Op} {w : BitVec 32}

/-- Twins pass the same checks; one that fails leaves both idle, and one that passes writes all that differs. -/
theorem accept_relatch (h : Fits same s.eng op w) (o : Op) (c : CmdFields) :
    Twin same (accept o c s) (accept o c (relatch op w s)) := by
  have hcheck : acceptCheck o c (relatch op w s) = acceptCheck o c s := rfl
  unfold accept
  rw [hcheck]
  cases acceptCheck o c s with
  | error st => exact ⟨o, w, rfl, h.1, fun hbusy => absurd rfl hbusy⟩
  | ok x => exact Twin.refl same _

theorem byteBuilt_relatch (hkind : SameKind s.eng.cmdOp op) (b : Byte) :
    byteBuilt b (relatch op w s) = relatch op (shrAfter (s.eng.relatch op w)) (byteBuilt b s) := by
  have hcks : cksAfter (relatch op w s).eng b = cksAfter s.eng b := cksAfter_relatch hkind b
  simp only [byteBuilt, hcks, emitByte, apply_ite (relatch op (shrAfter (s.eng.relatch op w)))]
  rfl

theorem txAdvance_relatch (hkind : SameKind s.eng.cmdOp op) :
    txAdvance (relatch op w s) = relatch op w (txAdvance s) := by
  have hlen : frameLen (relatch op w s).eng.cmdOp (relatch op w s).eng.cmdLen =
      frameLen s.eng.cmdOp s.eng.cmdLen := frameLen_of_sameKind hkind _
  have hwrite : isWriteKind (relatch op w s).eng.cmdOp = isWriteKind s.eng.cmdOp := hkind.1
  simp only [txAdvance, hlen, hwrite, apply_ite (relatch op w)]
  rfl

theorem txAdvance_latch (s : State) :
    (txAdvance s).eng.cmdOp = s.eng.cmdOp ∧ (txAdvance s).eng.shr = s.eng.shr := by
  rcases txAdvance_cases s with ⟨-, h⟩ | ⟨-, -, -, h⟩ | ⟨-, -, h⟩ <;> simp [h]

theorem txStep_relatch (h : Fits same s.eng op w) (hphase : s.eng.phase = .tx) :
    TwinResult same (txStep s) (txStep (relatch op w s)) := by
  obtain ⟨hsame, hbusy⟩ := h
  obtain ⟨hkind, hshr⟩ := hbusy (by simp [hphase])
  have hbyte : txByteAt (relatch op w s).eng (relatch op w s).eng.txi.toNat =
      txByteAt s.eng s.eng.txi.toNat := txByteAt_relatch hkind hshr _
  cases hb : txByteAt s.eng s.eng.txi.toNat with
  | none =>
    rw [txStep, txStep, hbyte, hb]
    exact .fault _
  | some b =>
    have hkind' : SameKind (byteBuilt b s).eng.cmdOp op := by simpa using hkind
    rw [txStep_of_txByteAt hb, txStep_of_txByteAt (hbyte.trans hb), byteBuilt_relatch hkind,
      txAdvance_relatch hkind']
    obtain ⟨hop, hw⟩ := txAdvance_latch (byteBuilt b s)
    refine .next ⟨op, _, rfl, fun hs => ?_, fun _ => ⟨by rwa [hop], fun hwrite => ?_⟩⟩
    · rw [hw, shrAfter_relatch hkind (hsame hs)]; simp
    · rw [hw, shrAfter_relatch hkind (hshr (by simpa [hop] using hwrite))]; simp

theorem takeByte_relatch : takeByte (relatch op w s) = (takeByte s).map fun x => (x.1, relatch op w x.2) := by
  unfold takeByte
  by_cases hphase : s.eng.phase = .rx
  · cases hsim : s.eng.cmdSim
    · cases hq : s.env.rxq <;> simp [relatch, Engine.relatch, hphase, hsim, hq]
    · cases hq : s.env.simq <;> simp [relatch, Engine.relatch, hphase, hsim, hq]
  · simp [relatch, Engine.relatch, hphase]

theorem rxStep_relatch (hkind : SameKind s.eng.cmdOp op) (b : Byte) :
    rxStep b (relatch op w s) = relatch op w (rxStep b s) := by
  have hwrite : isWriteKind (relatch op w s).eng.cmdOp = isWriteKind s.eng.cmdOp := hkind.1
  simp only [rxStep, rxStepRead, hwrite, apply_ite (relatch op w)]
  rfl

theorem rxStep_latch (b : Byte) (s : State) :
    (rxStep b s).eng.cmdOp = s.eng.cmdOp ∧ (rxStep b s).eng.shr = s.eng.shr := by
  rw [rxStep_eq]
  split
  · simp
  · rcases rxStepRead_cases b (traceByte .r b s) with ⟨-, h⟩ | ⟨-, h⟩ <;> simp [h]

theorem rxTurn_relatch (h : Fits same s.eng op w) : Twin same (rxTurn s) (rxTurn (relatch op w s)) := by
  obtain ⟨hsame, hbusy⟩ := h
  rw [rxTurn, rxTurn, takeByte_relatch]
  cases hb : takeByte s with
  | none => exact ⟨op, w, rfl, hsame, hbusy⟩
  | some x =>
    obtain ⟨b, t⟩ := x
    obtain ⟨hphase, -, heng, -⟩ := takeByte_eq_some hb
    obtain ⟨hkind, hshr⟩ := hbusy (by simp [hphase])
    rw [← heng] at hsame hkind hshr
    obtain ⟨hop, hw⟩ := rxStep_latch b t
    refine ⟨op, w, rxStep_relatch hkind b, ?_, fun _ => ?_⟩
    · rwa [hw]
    · rw [hop, hw]; exact ⟨hkind, hshr⟩

theorem rxTimeoutStep_relatch (h : Fits same s.eng op w) (hphase : s.eng.phase = .rx) :
    Twin same (rxTimeoutStep s) (rxTimeoutStep (relatch op w s)) := by
  obtain ⟨hsame, hbusy⟩ := h
  obtain ⟨hkind, hshr⟩ := hbusy (by simp [hphase])
  have hwrite : isWriteKind (relatch op w s).eng.cmdOp = isWriteKind s.eng.cmdOp := hkind.1
  unfold rxTimeoutStep
  rw [hwrite]
  split <;> exact ⟨op, w, rfl, hsame, fun _ => ⟨hkind, hshr⟩⟩

theorem drainStep_relatch (h : Fits same s.eng op w) (hphase : s.eng.phase = .drain) :
    Twin same (drainStep s) (drainStep (relatch op w s)) := by
  obtain ⟨hsame, hbusy⟩ := h
  obtain ⟨⟨-, -, hflush⟩, -⟩ := hbusy (by simp [hphase])
  have hflush : (relatch op w s).eng.cmdOp = .flush ↔ s.eng.cmdOp = .flush := hflush
  refine ⟨op, w, ?_, ?_, fun hbusy => absurd rfl hbusy⟩
  · have hsim : (relatch op w s).eng.cmdSim = s.eng.cmdSim := rfl
    simp only [drainStep, hflush, hsim]
    cases s.eng.cmdSim <;> rfl
  · cases hsim : s.eng.cmdSim <;> simpa [drainStep, hsim] using hsame

/-! ### So does every step -/

theorem hostCommand_relatch (h : Fits same s.eng op w) (o : Op) (c : CmdFields) :
    TwinResult same (hostCommand o c s) (hostCommand o c (relatch op w s)) := by
  have hphase : (relatch op w s).eng.phase = s.eng.phase := rfl
  unfold hostCommand
  rw [hphase]
  split
  · exact .next (accept_relatch h o c)
  · exact .next ⟨op, w, rfl, h⟩

theorem pendingFrame_relatch (h : Fits same s.eng op w) : pendingFrame (relatch op w s) = pendingFrame s := by
  by_cases hphase : s.eng.phase = .tx
  · obtain ⟨⟨hwrite, hread, -⟩, hshr⟩ := h.2 (by simp [hphase])
    cases hw : isWriteKind s.eng.cmdOp
    · simp [pendingFrame, relatch, Engine.relatch, hphase, hwrite, hread, hw]
    · simp [pendingFrame, relatch, Engine.relatch, hphase, hwrite, hw, hshr hw]
  · simp [pendingFrame, relatch, Engine.relatch, hphase]

theorem transferFrame_relatch (h : Fits same s.eng op w) (bytes : List Byte) :
    TwinResult same (transferFrame bytes s) (transferFrame bytes (relatch op w s)) := by
  have hen : txEnabled (relatch op w s) = txEnabled s := rfl
  unfold transferFrame
  rw [pendingFrame_relatch h, hen]
  split
  · rename_i hsend; exact txStep_relatch h (pendingFrame_eq_some hsend.1).1
  · exact .next ⟨op, w, rfl, h⟩

theorem offerReply_relatch (bytes : List Byte) :
    offerReply bytes (relatch op w s) = relatch op w (offerReply bytes s) := by
  simp only [offerReply, apply_ite (relatch op w)]; rfl

theorem deliverReply_relatch (h : Fits same s.eng op w) (bytes : List Byte) :
    Twin same (deliverReply bytes s) (deliverReply bytes (relatch op w s)) := by
  have heng : (offerReply bytes s).eng = s.eng := (offerReply_envMove bytes s).2.1
  rw [deliverReply, deliverReply, offerReply_relatch]
  exact rxTurn_relatch (heng ▸ h)

theorem runPortWord_relatch (h : Fits same s.eng op w) (p : PortWord) :
    TwinResult same (runPortWord p s) (runPortWord p (relatch op w s)) := by
  cases p with
  | cmd word => simp only [runPortWord_cmd]; exact hostCommand_relatch h _ _
  | frame bytes =>
    rcases runPortWord_frame bytes with hrun | hrun <;> simp only [hrun]
    · exact transferFrame_relatch h bytes
    · exact .next ⟨op, w, rfl, h⟩
  | reply bytes => simp only [runPortWord_reply]; exact .next (deliverReply_relatch h bytes)

theorem srfeTurn_relatch (h : Fits same s.eng op w) :
    TwinResult same (srfeTurn s) (srfeTurn (relatch op w s)) := by
  cases hphase : s.eng.phase with
  | idle =>
    cases hport : s.env.cmdPort with
    | none =>
      rw [srfeTurn_of_no_cmdPort hphase hport, srfeTurn_of_no_cmdPort (s := relatch op w s) hphase hport]
      exact .next ⟨op, w, rfl, h⟩
    | some word =>
      rw [srfeTurn_of_cmdPort hphase hport, srfeTurn_of_cmdPort (s := relatch op w s) hphase hport]
      exact runPortWord_relatch (s := setCmdPort none s) h (.cmd word)
  | tx =>
    have hen : txEnabled (relatch op w s) = txEnabled s := rfl
    rw [srfeTurn_of_tx hphase, srfeTurn_of_tx (s := relatch op w s) hphase, hen]
    split
    · exact txStep_relatch h hphase
    · exact .next ⟨op, w, rfl, h⟩
  | rx =>
    rw [srfeTurn_of_rx hphase, srfeTurn_of_rx (s := relatch op w s) hphase]
    exact .next (rxTurn_relatch h)
  | drain =>
    rw [srfeTurn_of_drain hphase, srfeTurn_of_drain (s := relatch op w s) hphase]
    exact .next (drainStep_relatch h hphase)

/-- A timeout is honoured by both twins or by neither (R38, R40). -/
theorem timeout_relatch (h : Fits same s.eng op w) {ready : Bool} (hready : ready = true → s.eng.phase = .rx) :
    Twin same (if ready then rxTimeoutStep s else s)
      (if ready then rxTimeoutStep (relatch op w s) else relatch op w s) := by
  cases ready with
  | true => exact rxTimeoutStep_relatch h (hready rfl)
  | false => exact ⟨op, w, rfl, h⟩

theorem applyEvent_relatch (h : Fits same s.eng op w) (e : EnvEvent) :
    TwinResult same (applyEvent e s) (applyEvent e (relatch op w s)) := by
  cases e with
  | turn => exact srfeTurn_relatch h
  | rxTimeout =>
    exact .next (timeout_relatch (ready := rxReady s) h fun hready => by simp_all [rxReady])
  | simTimeout =>
    exact .next (timeout_relatch (ready := simReady s) h fun hready => by simp_all [simReady])
  | reset => exact .next (Twin.refl same (resetStep s))
  | frame bytes => exact runPortWord_relatch h (.frame bytes)
  | reply bytes => exact runPortWord_relatch h (.reply bytes)
  | command _ | withdraw | arrive _ | canned _ | simMode _ | linkOk _ | txReady _ =>
    exact .next ⟨op, w, rfl, h⟩

end

theorem Twin.step_result {same : Prop} {s u : State} (h : Twin same s u) : TwinResult same (step s) (step u) := by
  obtain ⟨op, w, rfl, hfits⟩ := h
  cases hscript : s.env.script with
  | nil =>
    rw [step_of_script_nil hscript, step_of_script_nil (s := relatch op w s) hscript]
    exact srfeTurn_relatch hfits
  | cons e rest =>
    rw [step_of_script_cons hscript, step_of_script_cons (s := relatch op w s) hscript]
    exact applyEvent_relatch (s := setScript rest s) hfits e

/-- Twins stay twins over any run, or stop alike. -/
theorem Twin.run_result {same : Prop} {s u : State} (h : Twin same s u) (n : Nat) :
    TwinResult same (run n s) (run n u) := by
  induction n generalizing s u with
  | zero => exact .next h
  | succ n ih =>
    have hstep := h.step_result
    simp only [run]
    generalize step s = r, step u = q at hstep
    cases hstep with
    | next h => exact ih h
    | fault f => exact .fault f

/-! ### Commands that latch twins -/

/-- Two commands of one kind that pass the same checks latch twins, if a write has the same value. -/
theorem accept_twin {s : State} {op op' : Op} {c d : CmdFields}
    (hcheck : acceptCheck op' d s = acceptCheck op c s) (hboard : d.board = c.board) (hkind : SameKind op op')
    (hdata : isWriteKind op = true → d.wdata = c.wdata) :
    Twin (d.wdata = c.wdata) (accept op c s) (accept op' d s) := by
  have ⟨_, _, hflush⟩ := hkind
  unfold accept
  rw [hcheck]
  cases acceptCheck op c s with
  | error st =>
    exact ⟨op', s.eng.shr, by simp [relatch, Engine.relatch, raise, complete, latchCommand, hboard],
      fun _ => rfl, fun hbusy => absurd rfl hbusy⟩
  | ok x =>
    exact ⟨op', d.wdata, by simp [relatch, Engine.relatch, startCommand, latchCommand, hboard, hflush], id,
      fun _ => ⟨hkind, hdata⟩⟩

theorem TwinResult.agreeButOpAndShr {same : Prop} {r q : Result} (h : TwinResult same r q) :
    agreeButOpAndShr r q := by
  cases h with
  | next h => obtain ⟨op, w, rfl, -⟩ := h; rfl
  | fault f => rfl

theorem TwinResult.agreeButOp {same : Prop} {r q : Result} (h : TwinResult same r q) (hsame : same) :
    agreeButOp r q := by
  cases h with
  | next h => obtain ⟨op, w, rfl, hshr, -⟩ := h; rw [hshr hsame]; rfl
  | fault f => rfl

/-- Settles O25: GET and the RDREG of the register it looks up latch twins. -/
theorem getEqualsRdregAfterLookup : Obligations.GetEqualsRdregAfterLookup := by
  intro s c d n hidle hlookup hboard
  have hcheck : acceptCheck .rdreg d s = acceptCheck .get c s := by
    simp [acceptCheck, isReservedOp, usesCatalog, hlookup, hboard]
  have htwin := accept_twin hcheck hboard (by decide) (fun hwrite => absurd hwrite (by decide))
  exact ⟨accept .get c s, accept .rdreg d s, by simp [exec, execGet, hostCommand, hidle],
    by simp [exec, execRdreg, hostCommand, hidle], (htwin.run_result n).agreeButOpAndShr,
    fun hdata => (htwin.run_result n).agreeButOp hdata⟩

end Sys2Proof.Machine
end

section
/-! SUPPORT. What the catalog lookup answers for a selector (R70, R71, R180); what DRAIN leaves (R135); and SRFE's
waits, which leave the state as it is (R274). -/

namespace Sys2Proof.Machine

/-! ### The catalog -/

/-- Where the keys are distinct, searching for the key of an entry finds that entry. -/
theorem find?_key_of_nodup {α β : Type} [BEq β] [LawfulBEq β] {key : α → β} {l : List α} {x : α}
    (hkeys : (l.map key).Nodup) (hx : x ∈ l) : l.find? (fun y => key y == key x) = some x := by
  cases hfind : l.find? (fun y => key y == key x) with
  | none => exact absurd (BEq.refl (key x)) (List.find?_eq_none.1 hfind x hx)
  | some y =>
    have hkey : key y = key x := eq_of_beq (List.find?_some (p := fun y => key y == key x) hfind)
    rw [List.inj_on_of_nodup_map hkeys (List.mem_of_find?_eq_some hfind) hx hkey]

/-- The fixed entries come before CATALOG_EXT, so no extension hides one (R70; log 12). -/
theorem catLookup_of_mem_fixedCatalog (cfg : Config) {e : CatEntry} (he : e ∈ fixedCatalog) :
    catLookup cfg e.rsel = some (e.addr, e.len) := by
  have hfind := find?_key_of_nodup (key := CatEntry.rsel) (by decide) he
  simp [catLookup, catalog, List.find?_append, hfind]

theorem nodup_rsel_of_wf {cfg : Config} (h : cfg.wf = true) : ((catalog cfg).map (·.rsel)).Nodup := by
  simp only [Config.wf, Bool.and_eq_true, decide_eq_true_eq] at h
  obtain ⟨⟨-, hrsel⟩, -⟩ := h
  exact hrsel

theorem catLookup_of_mem_catalogExt {cfg : Config} {e : CatEntry} (hwf : cfg.wf = true)
    (he : e ∈ cfg.catalogExt) : catLookup cfg e.rsel = some (e.addr, e.len) := by
  have hfind := find?_key_of_nodup (nodup_rsel_of_wf hwf) (List.mem_append_right fixedCatalog he)
  rw [catLookup, hfind, Option.map_some]

theorem catLookup_eq_none_iff (cfg : Config) (rsel : Byte) :
    catLookup cfg rsel = none ↔ ∀ e ∈ catalog cfg, e.rsel ≠ rsel := by
  simp [catLookup]

theorem rsel_lt_of_mem_fixedCatalog : ∀ e ∈ fixedCatalog, e.rsel.toNat < 5 := by decide

theorem catLookup_eq_none {cfg : Config} {rsel : Byte} (hrsel : 5 ≤ rsel.toNat)
    (hext : ∀ e ∈ cfg.catalogExt, e.rsel ≠ rsel) : catLookup cfg rsel = none := by
  refine (catLookup_eq_none_iff cfg rsel).2 fun e he => ?_
  rcases List.mem_append.1 he with hfixed | he
  · rintro rfl
    exact absurd hrsel (Nat.not_le.2 (rsel_lt_of_mem_fixedCatalog e hfixed))
  · exact hext e he

/-- Settles O9: a selector is that of a fixed entry, of an extension entry, or of none. -/
theorem catalogLookup : Obligations.CatalogLookup := by
  refine ⟨fun cfg => ?_, fun cfg e hwf he => catLookup_of_mem_catalogExt hwf he,
    fun cfg rsel hrsel hext => catLookup_eq_none hrsel hext, fun rsel hrsel => catLookup_eq_none hrsel nofun⟩
  have hfixed : ∀ e ∈ fixedCatalog, catLookup cfg e.rsel = some (e.addr, e.len) :=
    fun e he => catLookup_of_mem_fixedCatalog cfg he
  simpa [fixedCatalog] using hfixed

/-! ### DRAIN -/

/-- Settles O39: in simulated mode the drain leaves the pending input alone, in real mode it discards it. -/
theorem drainCompletesTheCommand : Obligations.DrainCompletesTheCommand := by
  intro s hphase hscript
  rw [step_of_script_nil hscript, srfeTurn_of_drain hphase]
  cases hsim : s.eng.cmdSim <;> simp [drainStep, hsim, complete, rxFlush]

/-! ### Waiting -/

/-- A state whose step answers itself stays for any number of steps. -/
theorem run_of_step_self {s : State} (h : step s = .next s) (n : Nat) : run n s = .next s := by
  induction n with
  | zero => rfl
  | succ n ih => rw [run, h]; exact ih

theorem takeByte_of_responseQueue_nil {s : State} (h : responseQueue s.eng.cmdSim s = []) :
    takeByte s = none := by
  cases hb : takeByte s with
  | none => rfl
  | some x =>
    obtain ⟨-, -, -, ⟨hsim, rest, hq, -⟩ | ⟨hsim, rest, hq, -⟩⟩ := takeByte_eq_some hb <;>
      simp [responseQueue, hsim, hq] at h

/-- In phase RX with no response byte SRFE waits (R76, R129). -/
theorem srfeTurn_of_no_response {s : State} (hphase : s.eng.phase = .rx)
    (hqueue : responseQueue s.eng.cmdSim s = []) : srfeTurn s = .next s := by
  rw [srfeTurn_of_rx hphase, rxTurn, takeByte_of_responseQueue_nil hqueue]

/-- In phase TX of a real command SRFE waits for the transport to accept (R37, R129). -/
theorem srfeTurn_of_tx_not_ready {s : State} (hphase : s.eng.phase = .tx) (hreal : s.eng.cmdSim = false)
    (hwait : s.env.txReady = false) : srfeTurn s = .next s := by
  have hdisabled : txEnabled s = false := by simp [txEnabled, hreal, hwait]
  simp [srfeTurn_of_tx hphase, hdisabled]

/-- Settles O51: both waits are steps that answer the same state. -/
theorem srfeWaitsWithoutLimit : Obligations.SrfeWaitsWithoutLimit := by
  refine ⟨fun s n hphase hscript hqueue => run_of_step_self ?_ n,
    fun s n hphase hscript hreal hwait => run_of_step_self ?_ n⟩
  · rw [step_of_script_nil hscript, srfeTurn_of_no_response hphase hqueue]
  · rw [step_of_script_nil hscript, srfeTurn_of_tx_not_ready hphase hreal hwait]

end Sys2Proof.Machine
end

section
/-! SUPPORT. The decoder and the encoder as inverses of each other (R93 to R96, R100, R101); what the reference
parser of frames accepts and answers (R108, R109); and the statements on these. -/

namespace Sys2Proof.Machine

/-! ### Decoding what was encoded -/

theorem decode_cmd_encodeCmd (op : Op) (c : CmdFields) :
    decode (.cmd (encodeCmd op c)) = .ok (cmdInstr op c) := by
  simp [decode, decodeCmd, encodeCmd_op, cmdFieldsOf_encodeCmd]

/-- Settles O1: the fields of a command word come apart as they were put together, and the fixed bytes of a frame or
reply row choose its constructor. -/
theorem decodeInvertsEncode : Obligations.DecodeInvertsEncode := by
  intro i
  cases i with
  | wrreg c => exact decode_cmd_encodeCmd .wrreg c
  | rdreg c => exact decode_cmd_encodeCmd .rdreg c
  | set c => exact decode_cmd_encodeCmd .set c
  | get c => exact decode_cmd_encodeCmd .get c
  | flush c => exact decode_cmd_encodeCmd .flush c
  | reservedOp5 c => exact decode_cmd_encodeCmd .reserved5 c
  | reservedOp6 c => exact decode_cmd_encodeCmd .reserved6 c
  | reservedOp7 c => exact decode_cmd_encodeCmd .reserved7 c
  | wrframe1 | wrframe2 | wrframe3 | rdreq1 | rdreq2 | rdreq3 => rfl
  | ackreply | rdreply1 | rdreply2 | rdreply3 => rfl

theorem decode_of_encode {i : Instr} {p : PortWord} (h : encode i = p) : decode p = .ok i :=
  h ▸ decodeInvertsEncode i

theorem decode_frame_iff (bytes : List Byte) (i : Instr) :
    decode (.frame bytes) = .ok i ↔ encode i = .frame bytes :=
  ⟨encode_of_decodeFrame, decode_of_encode⟩

/-- Settles O2: the command that is read has every bit of the word in one of its fields. -/
theorem encodeInvertsDecodeOfCommandWords : Obligations.EncodeInvertsDecodeOfCommandWords := by
  intro w
  exact ⟨decodeCmd w, rfl, (encode_cmdInstr _ _).trans (congrArg _ (encodeCmd_cmdFieldsOf w))⟩

/-- Settles O3: each word is the encoding of its term, so the round trip reads it back. -/
theorem specWordsDecode : Obligations.SpecWordsDecode := by
  refine ⟨decode_of_encode ?_, decode_of_encode ?_, decode_of_encode ?_, decode_of_encode ?_,
    decode_of_encode ?_, decode_of_encode rfl, decode_of_encode rfl, decode_of_encode rfl,
    decode_of_encode rfl⟩ <;> decide

/-! ### Bytes of a frame -/

theorem headerByte_toNat {board : Byte} (h : board.toNat < maxBoards) :
    (headerByte board).toNat = hdrBase.toNat + board.toNat := by
  have hmax : board.toNat < 86 := h
  simp only [headerByte, hdrBase, BitVec.toNat_add, show (0xAA : Byte).toNat = 170 from rfl]
  omega

theorem headerByte_sub_hdrBase (board : Byte) : headerByte board - hdrBase = board := by
  rw [headerByte, BitVec.add_comm, BitVec.add_sub_cancel]

theorem lengthByte_toNat (len : BitVec 2) : (lengthByte len).toNat = 1 + len.toNat := by
  revert len; decide

theorem toNat_pos_of_len_ne_zero {len : BitVec 2} (h : len ≠ 0) : 0 < len.toNat := by
  revert len; decide

theorem ne_rdMark_of_toNat_le {m : Byte} (h : m.toNat ≤ 4) : m ≠ rdMark := by
  rintro rfl
  exact absurd h (by decide)

theorem leValue_append (g h : List Byte) :
    leValue (g ++ h) = leValue g + leValue h <<< (8 * g.length) := by
  induction g with
  | nil => simp [leValue]
  | cons b g ih =>
    simp [leValue, ih, BitVec.shiftLeft_add_distrib, ← BitVec.shiftLeft_add, BitVec.add_assoc, Nat.mul_add]

/-- Packing and reading back gives the low bytes, as far as 24 bits hold them (R122, R124). -/
theorem leValue_pack_toNat (v : BitVec 32) {n : Nat} (hn : n ≤ 3) :
    (leValue (pack v n)).toNat = v.toNat % 2 ^ (8 * n) := by
  induction n generalizing v with
  | zero => simp [pack, leValue, Nat.mod_one]
  | succ n ih =>
    have hshift : (v >>> 8).toNat = v.toNat / 256 := by simp [Nat.shiftRight_eq_div_pow]
    have htail : (leValue (pack (v >>> 8) n)).toNat = v.toNat / 256 % 2 ^ (8 * n) := by
      rw [ih (v >>> 8) (by omega), hshift]
    have hlt : v.toNat / 256 % 2 ^ (8 * n) < 2 ^ 16 :=
      (Nat.mod_lt _ (by positivity)).trans_le (Nat.pow_le_pow_right (by decide) (by omega))
    have hpow : 2 ^ (8 * (n + 1)) = 256 * 2 ^ (8 * n) := by rw [Nat.mul_add, Nat.pow_add, Nat.mul_comm]
    rw [pack, leValue, BitVec.toNat_add, BitVec.toNat_shiftLeft, htail, hpow, Nat.mod_mul, Nat.shiftLeft_eq,
      BitVec.toNat_setWidth, BitVec.toNat_setWidth]
    omega

/-! ### The reference parser -/

/-- The reference parser's own test of the header passes (R108). -/
abbrev HeaderOk (nboards : Nat) (h : Byte) : Prop :=
  hdrBase.toNat ≤ h.toNat ∧ h.toNat < hdrBase.toNat + nboards

theorem headerWf_iff (cfg : Config) (h : Byte) : headerWf cfg h = true ↔ HeaderOk cfg.nboards h := by
  simp [headerWf, HeaderOk]

theorem headerOk_headerByte {n : Nat} {board : Byte} (hn : n ≤ maxBoards) (hboard : board.toNat < n) :
    HeaderOk n (headerByte board) := by
  rw [HeaderOk, headerByte_toNat (hboard.trans_le hn)]
  omega

theorem decodeRequest_of_not_headerOk {n : Nat} {h : Byte} (hh : ¬ HeaderOk n h) (f : List Byte) :
    decodeRequest n (h :: f) = none := by
  have hbad : h.toNat < hdrBase.toNat ∨ n ≤ h.toNat - hdrBase.toNat := by omega
  unfold decodeRequest
  split
  · rename_i heq
    cases heq
    rw [if_pos hbad]
  · rfl

/-- With `RD_MARK` at index 1 the parser takes a read request of five bytes, or nothing (R108). -/
theorem decodeRequest_rdMark {n : Nat} {h : Byte} (hh : HeaderOk n h) (a x k : Byte) (rest : List Byte) :
    decodeRequest n (h :: rdMark :: a :: x :: k :: rest) =
      if rest = [] ∧ 1 ≤ x.toNat ∧ x.toNat ≤ 3 ∧ k = checksum [h, rdMark, a, x] then
        some (.readReq (h - hdrBase) a (x.setWidth 2))
      else none := by
  have hgood : ¬ (h.toNat < hdrBase.toNat ∨ n ≤ h.toNat - hdrBase.toNat) := by omega
  have hsum : checksum [h, rdMark, a, x] = rdMark + a + x := by
    simp [checksum, byteSum, BitVec.add_assoc]
  rw [hsum, decodeRequest, if_neg hgood, if_pos rfl]

/-- With another byte at index 1 it takes a write of the length that byte names, or nothing (R108). -/
theorem decodeRequest_write {n : Nat} {h m : Byte} (hh : HeaderOk n h) (hm : m ≠ rdMark) (a : Byte)
    {data : List Byte} (hdata : data ≠ []) (k : Byte) :
    decodeRequest n (h :: m :: a :: (data ++ [k])) =
      if data.length ≤ 3 ∧ m.toNat = 1 + data.length ∧ k = checksum (h :: m :: a :: data) then
        some (.write (h - hdrBase) a (BitVec.ofNat 2 data.length) (leValue data))
      else none := by
  have hgood : ¬ (h.toNat < hdrBase.toNat ∨ n ≤ h.toNat - hdrBase.toNat) := by omega
  have hpos : 0 < data.length := List.length_pos_iff.2 hdata
  have hlength : (h :: m :: a :: (data ++ [k])).length = 4 + data.length := by simp; omega
  have hlast : (h :: m :: a :: (data ++ [k])).getLast? = some k :=
    List.getLast?_concat (l := h :: m :: a :: data)
  obtain ⟨x, tail, hcons⟩ := List.exists_cons_of_ne_nil hdata
  obtain ⟨y, rest, htail⟩ := List.exists_cons_of_ne_nil (List.concat_ne_nil k tail)
  have hfive : h :: m :: a :: (data ++ [k]) = h :: m :: a :: x :: y :: rest := by
    rw [hcons, List.cons_append, htail]
  rw [hfive, decodeRequest, if_neg hgood, if_neg hm, ← hfive, hlast, hlength]
  by_cases hlen : m.toNat = 1 + data.length
  · have hsub : m.toNat - 1 = data.length := by omega
    have hbody : (h :: m :: a :: (data ++ [k])).take (3 + data.length) = h :: m :: a :: data :=
      List.take_left' (l₁ := h :: m :: a :: data) (by simp; omega)
    have hvalue : ((h :: m :: a :: (data ++ [k])).drop 3).take data.length = data := List.take_left
    have hrange : (2 ≤ m.toNat ∧ m.toNat ≤ 4) ↔ data.length ≤ 3 := by omega
    simp only [hsub, hbody, hvalue, hrange, Option.some.injEq, true_and, ite_and, if_pos hlen]
  · have hno : ¬ (data.length ≤ 3 ∧ m.toNat = 1 + data.length ∧ k = checksum (h :: m :: a :: data)) :=
      fun ⟨_, hyes, _⟩ => hlen hyes
    have hshort : ¬ (2 ≤ m.toNat ∧ m.toNat ≤ 4) ∨ ¬ 4 + data.length = 4 + (m.toNat - 1) := by omega
    rcases hshort with hshort | hshort
    · simp only [hshort, hno, if_false]
    · simp only [hshort, hno, false_and, if_false, ite_self]

/-- A read request of a legal length with its checksum is read back (R108). -/
theorem decodeRequest_withChecksum_rdMark {n : Nat} {h : Byte} (hh : HeaderOk n h) (a : Byte) {x : Byte}
    (hlow : 1 ≤ x.toNat) (hhigh : x.toNat ≤ 3) :
    decodeRequest n (withChecksum [h, rdMark, a, x]) = some (.readReq (h - hdrBase) a (x.setWidth 2)) :=
  (decodeRequest_rdMark hh a x _ []).trans (if_pos ⟨rfl, hlow, hhigh, rfl⟩)

/-- A write whose index 1 names the number of its data bytes, with its checksum, is read back (R108). -/
theorem decodeRequest_withChecksum_write {n : Nat} {h m : Byte} (hh : HeaderOk n h) (a : Byte)
    {data : List Byte} (hdata : data ≠ []) (hlen : data.length ≤ 3) (hm : m.toNat = 1 + data.length) :
    decodeRequest n (withChecksum (h :: m :: a :: data)) =
      some (.write (h - hdrBase) a (BitVec.ofNat 2 data.length) (leValue data)) :=
  (decodeRequest_write hh (ne_rdMark_of_toNat_le (by omega)) a hdata _).trans (if_pos ⟨hlen, hm, rfl⟩)

/-- What the reference parser accepts: a read request of five bytes, or a write of one to three data bytes, each with
the header of a configured board and the checksum of the bytes before the last (R108). -/
theorem decodeRequest_isSome_iff (n : Nat) (f : List Byte) :
    (decodeRequest n f).isSome = true ↔ ∃ h a, HeaderOk n h ∧
      ((∃ x, 1 ≤ x.toNat ∧ x.toNat ≤ 3 ∧ f = withChecksum [h, rdMark, a, x]) ∨
        ∃ m data, data ≠ [] ∧ data.length ≤ 3 ∧ m.toNat = 1 + data.length ∧
          f = withChecksum (h :: m :: a :: data)) := by
  constructor
  · intro hsome
    match f with
    | [] | [_] | [_, _] | [_, _, _] | [_, _, _, _] => simp [decodeRequest] at hsome
    | h :: m :: a :: x :: k :: rest =>
      by_cases hh : HeaderOk n h
      · refine ⟨h, a, hh, ?_⟩
        by_cases hm : m = rdMark
        · subst hm
          rw [decodeRequest_rdMark hh] at hsome
          split at hsome
          · rename_i hok
            obtain ⟨rfl, hlow, hhigh, rfl⟩ := hok
            exact .inl ⟨x, hlow, hhigh, rfl⟩
          · cases hsome
        · obtain ⟨data, c, hdata⟩ := (List.eq_nil_or_concat' (x :: k :: rest)).resolve_left nofun
          have hne : data ≠ [] := by rintro rfl; simp at hdata
          rw [hdata, decodeRequest_write hh hm a hne] at hsome
          split at hsome
          · rename_i hok
            obtain ⟨hlen, hindex, rfl⟩ := hok
            exact .inr ⟨m, data, hne, hlen, hindex, by rw [hdata]; rfl⟩
          · cases hsome
      · rw [decodeRequest_of_not_headerOk hh] at hsome
        cases hsome
  · rintro ⟨h, a, hh, ⟨x, hlow, hhigh, rfl⟩ | ⟨m, data, hne, hlen, hindex, rfl⟩⟩
    · exact Option.isSome_of_eq_some (decodeRequest_withChecksum_rdMark hh a hlow hhigh)
    · exact Option.isSome_of_eq_some (decodeRequest_withChecksum_write hh a hne hlen hindex)

theorem frameWf_iff (cfg : Config) (h : Byte) (body : List Byte) (k : Byte) :
    frameWf cfg (h :: body) k = true ↔ HeaderOk cfg.nboards h ∧ k = checksum (h :: body) := by
  simp [frameWf, headerWf_iff]

/-- Settles O4: each built frame has the shape that is read back, and the data bytes hold the low bytes of the
value. -/
theorem referenceParserRoundTrip : Obligations.ReferenceParserRoundTrip := by
  refine ⟨fun n board addr len value hn hboard hlen => ?_, fun b a b' a' l l' v => ⟨rfl, ?_, rfl⟩, ?_⟩
  · have hheader := headerOk_headerByte hn hboard
    have hpos := toNat_pos_of_len_ne_zero hlen
    have hle : len.toNat ≤ 3 := Nat.le_of_lt_succ len.isLt
    constructor
    · have hdata : pack value len.toNat ≠ [] := List.length_pos_iff.1 (by simpa using hpos)
      have hparse := decodeRequest_withChecksum_write hheader addr hdata (by simpa using hle)
        (m := lengthByte len) (by rw [lengthByte_toNat, pack_length])
      rw [headerByte_sub_hdrBase, pack_length, BitVec.ofNat_toNat, BitVec.setWidth_eq] at hparse
      exact ⟨leValue (pack value len.toNat), leValue_pack_toNat value hle, hparse⟩
    · have hback : (lenField len).setWidth 2 = len := by simp [lenField]
      have hfield : (lenField len).toNat = len.toNat := by simp [lenField]; omega
      have hparse := decodeRequest_withChecksum_rdMark hheader addr (x := lenField len) (by omega) (by omega)
      rw [headerByte_sub_hdrBase, hback] at hparse
      exact hparse
  · rw [lengthByte_toNat]; omega
  · intro v hv
    rw [leValue_pack_toNat v (le_refl 3)]
    exact Nat.mod_eq_of_lt hv

/-- Settles O5: each side is one of the shapes of `decodeRequest_isSome_iff`, and each length of a shape is one frame
term. -/
theorem referenceParserAcceptsExactlyLegalFrames :
    Obligations.ReferenceParserAcceptsExactlyLegalFrames := by
  intro cfg f _
  simp only [decodeRequest_isSome_iff, decode_frame_iff]
  constructor
  · rintro ⟨h, a, hh, ⟨x, hlow, hhigh, rfl⟩ | ⟨m, data, hne, hlen, hindex, rfl⟩⟩
    · have hx : x = 0x01 ∨ x = 0x02 ∨ x = 0x03 := by bv_omega
      rcases hx with rfl | rfl | rfl
      · exact ⟨.rdreq1 h a _, rfl, (frameWf_iff ..).2 ⟨hh, rfl⟩⟩
      · exact ⟨.rdreq2 h a _, rfl, (frameWf_iff ..).2 ⟨hh, rfl⟩⟩
      · exact ⟨.rdreq3 h a _, rfl, (frameWf_iff ..).2 ⟨hh, rfl⟩⟩
    · match data, hne, hlen with
      | [d0], _, _ =>
        obtain rfl : m = 0x02 := BitVec.eq_of_toNat_eq hindex
        exact ⟨.wrframe1 h a d0 _, rfl, (frameWf_iff ..).2 ⟨hh, rfl⟩⟩
      | [d0, d1], _, _ =>
        obtain rfl : m = 0x03 := BitVec.eq_of_toNat_eq hindex
        exact ⟨.wrframe2 h a d0 d1 _, rfl, (frameWf_iff ..).2 ⟨hh, rfl⟩⟩
      | [d0, d1, d2], _, _ =>
        obtain rfl : m = 0x04 := BitVec.eq_of_toNat_eq hindex
        exact ⟨.wrframe3 h a d0 d1 d2 _, rfl, (frameWf_iff ..).2 ⟨hh, rfl⟩⟩
  · rintro ⟨i, hi, hwf⟩
    cases i with
    | wrframe1 h a d0 k =>
      obtain ⟨hh, rfl⟩ := (frameWf_iff ..).1 hwf
      cases hi
      exact ⟨h, a, hh, .inr ⟨2, [d0], nofun, by simp, rfl, rfl⟩⟩
    | wrframe2 h a d0 d1 k =>
      obtain ⟨hh, rfl⟩ := (frameWf_iff ..).1 hwf
      cases hi
      exact ⟨h, a, hh, .inr ⟨3, [d0, d1], nofun, by simp, rfl, rfl⟩⟩
    | wrframe3 h a d0 d1 d2 k =>
      obtain ⟨hh, rfl⟩ := (frameWf_iff ..).1 hwf
      cases hi
      exact ⟨h, a, hh, .inr ⟨4, [d0, d1, d2], nofun, by simp, rfl, rfl⟩⟩
    | rdreq1 h a k =>
      obtain ⟨hh, rfl⟩ := (frameWf_iff ..).1 hwf
      cases hi
      exact ⟨h, a, hh, .inl ⟨1, by decide, by decide, rfl⟩⟩
    | rdreq2 h a k =>
      obtain ⟨hh, rfl⟩ := (frameWf_iff ..).1 hwf
      cases hi
      exact ⟨h, a, hh, .inl ⟨2, by decide, by decide, rfl⟩⟩
    | rdreq3 h a k =>
      obtain ⟨hh, rfl⟩ := (frameWf_iff ..).1 hwf
      cases hi
      exact ⟨h, a, hh, .inl ⟨3, by decide, by decide, rfl⟩⟩
    | _ => cases hi

end Sys2Proof.Machine
end

section
/-! SUPPORT. The last byte of a frame and what follows it (R131), and the statement that a frame goes out whole. -/

namespace Sys2Proof.Machine

/-- At the start of a frame, the frame of the command latch is pending: the converse of `pendingFrame_eq_some`. -/
theorem pendingFrame_of_kind {s : State} {bytes : List Byte} (hphase : s.eng.phase = .tx)
    (htxi : s.eng.txi = 0) (hcks : s.eng.cks = 0)
    (hkind : (isWriteKind s.eng.cmdOp = true ∧
        bytes = writeFrame s.eng.cmdBoard s.eng.cmdAddr s.eng.cmdLen s.eng.shr) ∨
      (isReadKind s.eng.cmdOp = true ∧
        bytes = readReqFrame s.eng.cmdBoard s.eng.cmdAddr s.eng.cmdLen)) :
    pendingFrame s = some bytes := by
  rcases hkind with ⟨hw, rfl⟩ | ⟨hr, rfl⟩
  · simp [pendingFrame, hphase, htxi, hcks, hw]
  · simp [pendingFrame, hphase, htxi, hcks, hr, isWriteKind_of_isReadKind hr]

/-- Two runs in a row are one run. -/
theorem run_add {m : Nat} {s t : State} (h : run m s = .next t) (n : Nat) : run (m + n) s = run n t := by
  induction m generalizing s with
  | zero => cases h; rw [Nat.zero_add]
  | succ m ih =>
    rw [Nat.succ_add, run]
    rw [run] at h
    split at h
    · exact ih h
    · cases h
    · cases h

theorem run_one (s : State) : run 1 s = step s := by
  rw [run]
  cases step s <;> rfl

/-- The state `s`, at the start of its frame, once the checksum is out too: the engine stands where `CKS` holds the
checksum and `TXI` the last index (R131). -/
def frameSent (s : State) : State :=
  { s with
    eng := s.eng.afterBytes (frameBody s.eng).length
    env := { s.env with
      wireOut := if s.eng.cmdSim then s.env.wireOut else s.env.wireOut ++ withChecksum (frameBody s.eng)
      trace := s.env.trace ++ traced .t (withChecksum (frameBody s.eng)) } }

/-- The checksum byte is not added to itself (R23, R131). -/
theorem cksAfter_of_last {e : Engine} (h : e.txi.toNat + 1 = frameLen e.cmdOp e.cmdLen) (b : Byte) :
    cksAfter e b = e.cks := by
  have hlast : ¬ e.txi.toNat < frameLen e.cmdOp e.cmdLen - 1 := by omega
  simp [cksAfter, hlast]

/-- Nor does it shift a data byte out (R22, R131). -/
theorem shrAfter_of_last {e : Engine} (h : e.txi.toNat + 1 = frameLen e.cmdOp e.cmdLen) :
    shrAfter e = e.shr := by
  refine if_neg fun ⟨hw, _, hdata⟩ => ?_
  rw [frameLen, if_pos hw] at h
  omega

/-- After the checksum a simulated write completes, and everything else waits for its response (R131). -/
theorem txAdvance_of_last {s : State} (h : s.eng.txi.toNat + 1 = frameLen s.eng.cmdOp s.eng.cmdLen) :
    txAdvance s = if isWriteKind s.eng.cmdOp && s.eng.cmdSim then complete .ok true 0 false s
      else { s with eng := { s.eng with phase := .rx } } := by
  have hlast : ¬ s.eng.txi.toNat < frameLen s.eng.cmdOp s.eng.cmdLen - 1 := by omega
  rw [txAdvance, if_neg hlast]

theorem sentBytes_body_txi (s : State) :
    (sentBytes s (frameBody s.eng).length).eng.txi.toNat = (frameBody s.eng).length :=
  Engine.afterBytes_txi_toNat (by rw [← frameBody_length]; omega)

theorem byteBuilt_checksum (s : State) :
    byteBuilt (checksum (frameBody s.eng)) (sentBytes s (frameBody s.eng).length) = frameSent s := by
  have hlast : (sentBytes s (frameBody s.eng).length).eng.txi.toNat + 1 =
      frameLen s.eng.cmdOp s.eng.cmdLen := by rw [sentBytes_body_txi, frameBody_length]
  have hcks := cksAfter_of_last hlast (checksum (frameBody s.eng))
  have hshr := shrAfter_of_last hlast
  refine state_eq ?_ ?_ ?_
  · simp [frameSent, sentBytes]
  · rw [emitByte_eng, hcks, hshr]
    rfl
  · cases hsim : s.eng.cmdSim <;> simp [frameSent, sentBytes, withChecksum, traced, hsim]

theorem txStep_sentBytes_body {s : State} (hop : isRegisterOp s.eng.cmdOp = true) :
    txStep (sentBytes s (frameBody s.eng).length) = .next (txAdvance (frameSent s)) := by
  have hlen := frameBody_length s.eng
  have hbyte : txByteAt (sentBytes s (frameBody s.eng).length).eng
      (sentBytes s (frameBody s.eng).length).eng.txi.toNat = some (checksum (frameBody s.eng)) := by
    rw [sentBytes_body_txi]
    exact (txByteAt_afterBytes hop (by omega)).trans (by simp [withChecksum])
  rw [txStep_of_txByteAt hbyte, byteBuilt_checksum]

/-- With nothing scheduled the whole frame goes out, one byte a step (R128, R131, R132). -/
theorem run_frame {s : State} (hop : isRegisterOp s.eng.cmdOp = true) (hphase : s.eng.phase = .tx)
    (hscript : s.env.script = []) (hen : txEnabled s = true) {k : Nat} (hk : k ≤ (frameBody s.eng).length) :
    run ((frameBody s.eng).length - k + 1) (sentBytes s k) = .next (txAdvance (frameSent s)) := by
  have hlen := frameBody_length s.eng
  have hbody := run_sentBytes hop hphase hscript hen ((frameBody s.eng).length - k) k (by omega)
  rw [Nat.add_sub_cancel' hk] at hbody
  have hturn : step (sentBytes s (frameBody s.eng).length) = txStep (sentBytes s (frameBody s.eng).length) :=
    step_of_txEnabled hphase hscript hen
  rw [run_add hbody, run_one, hturn, txStep_sentBytes_body hop]

/-- The engine whose frame is out but for the checksum: SHR has lost the data bytes of a write (R22, R23). -/
theorem afterBytes_body (e : Engine) : e.afterBytes (frameBody e).length = { e with
    shr := if isWriteKind e.cmdOp then e.shr >>> (8 * e.cmdLen.toNat) else e.shr
    cks := checksum (frameBody e)
    txi := BitVec.ofNat 3 (frameBody e).length } := by
  have hdata : isWriteKind e.cmdOp = true → (frameBody e).length - 3 = e.cmdLen.toNat := fun hw => by
    simp [frameBody_of_write hw]
  cases hw : isWriteKind e.cmdOp
  · simp [Engine.afterBytes, hw]
  · simp [Engine.afterBytes, hw, hdata hw]

theorem frameBody_length_pos (e : Engine) : 1 ≤ (frameBody e).length := by
  unfold frameBody; split <;> simp

/-- Settles O27: the header, then the other bytes along `sentBytes`, then the end of the frame. -/
theorem frameGoesOutWhole : Obligations.FrameGoesOutWhole := by
  intro s i bytes hi hphase htxi hcks haccept hscript hkind
  have hpending := pendingFrame_of_kind hphase htxi hcks hkind
  obtain ⟨-, -, -, hop, rfl⟩ := pendingFrame_eq_frameBody hpending
  have hen := (txEnabled_iff s).2 haccept
  have hlen := frameBody_length s.eng
  have hone := frameBody_length_pos s.eng
  have hfirst : exec i s = .next (sentBytes s 1) := by
    rw [exec_of_encode_frame hi, transferFrame, if_pos ⟨hpending, hen⟩,
      ← txStep_sentBytes hop (k := 0) (by omega), sentBytes_zero htxi hcks]
  have hrest := run_frame hop hphase hscript hen hone
  rw [Nat.sub_add_cancel hone] at hrest
  have hlast : (frameSent s).eng.txi.toNat + 1 = frameLen s.eng.cmdOp s.eng.cmdLen := by
    rw [← hlen]; exact congrArg (· + 1) (sentBytes_body_txi s)
  have hcount : (withChecksum (frameBody s.eng)).length - 1 = (frameBody s.eng).length := by
    simp [withChecksum]
  have hbody : (withChecksum (frameBody s.eng)).dropLast = frameBody s.eng := by simp [withChecksum]
  refine ⟨sentBytes s 1, _, hfirst, by rw [hcount]; exact hrest, ?_⟩
  rw [hcount, hbody, txAdvance_of_last hlast]
  cases hsimWrite : isWriteKind s.eng.cmdOp && s.eng.cmdSim
  · simp [frameSent, afterBytes_body, hsimWrite]
  · simp [frameSent, afterBytes_body, hsimWrite, complete]

end Sys2Proof.Machine
end

section
/-! SUPPORT. How a reply comes in, byte by byte: the response queue, the read once some reply bytes are taken, the one
RxStep between two such states (R96, R124, R133), and the statements on replies. -/

namespace Sys2Proof.Machine

/-! ### The response queue -/

/-- The queue of the response source in use holds these bytes (R38, R40). -/
def setResponseQueue (q : List Byte) (s : State) : State :=
  { s with env := { s.env with
      simq := if s.eng.cmdSim then q else s.env.simq
      rxq := if s.eng.cmdSim then s.env.rxq else q } }

@[simp] theorem setResponseQueue_eng (q : List Byte) (s : State) : (setResponseQueue q s).eng = s.eng := rfl

theorem setResponseQueue_of_eq {s : State} {q : List Byte} (h : responseQueue s.eng.cmdSim s = q) :
    setResponseQueue q s = s := by
  subst h
  cases hsim : s.eng.cmdSim <;> refine state_eq rfl rfl ?_ <;> simp [setResponseQueue, responseQueue, hsim]

/-- In phase RX reply bytes join the queue in use (R75; log 6). -/
theorem offerReply_of_rx {s : State} (hphase : s.eng.phase = .rx) (bytes : List Byte) :
    offerReply bytes s = setResponseQueue (responseQueue s.eng.cmdSim s ++ bytes) s := by
  cases hsim : s.eng.cmdSim <;>
    simp [offerReply, busy, hphase, hsim, setResponseQueue, responseQueue, arriveRx, arriveSim]

/-- In phase RX the oldest byte of the queue in use is taken by one `RxStep` (R129, R133). -/
theorem rxTurn_setResponseQueue {s : State} (hphase : s.eng.phase = .rx) (b : Byte) (q : List Byte) :
    rxTurn (setResponseQueue (b :: q) s) = rxStep b (setResponseQueue q s) := by
  cases hsim : s.eng.cmdSim <;> simp [rxTurn, takeByte, setResponseQueue, hphase, hsim]

/-- A reply that comes in on an empty queue starts to be taken (R133; log 6). -/
theorem exec_reply_of_rx {s : State} (hphase : s.eng.phase = .rx)
    (hqueue : responseQueue s.eng.cmdSim s = []) {i : Instr} {b : Byte} {q : List Byte}
    (hi : encode i = .reply (b :: q)) : exec i s = .next (rxStep b (setResponseQueue q s)) := by
  rw [exec_of_encode_reply hi, deliverReply, offerReply_of_rx hphase, hqueue, List.nil_append,
    rxTurn_setResponseQueue hphase]

/-- With nothing scheduled SRFE takes the next byte by itself (R129). -/
theorem step_setResponseQueue {s : State} (hphase : s.eng.phase = .rx) (hscript : s.env.script = []) (b : Byte)
    (q : List Byte) : step (setResponseQueue (b :: q) s) = .next (rxStep b (setResponseQueue q s)) := by
  rw [step_of_script_nil (s := setResponseQueue (b :: q) s) hscript,
    srfeTurn_of_rx (s := setResponseQueue (b :: q) s) hphase, rxTurn_setResponseQueue hphase]

/-! ### The acknowledgment -/

/-- An acknowledgment byte leaves `ACKOK`, and the second one leads to the drain (R125, R133). -/
theorem rxStep_ackByte {s : State} (hwrite : isWriteKind s.eng.cmdOp = true) : rxStep ackByte s = { s with
    eng := { s.eng with
      rxi := s.eng.rxi + 1, phase := if s.eng.rxi.toNat + 1 = ackLen then .drain else s.eng.phase }
    env := { s.env with trace := s.env.trace ++ traced .r [ackByte] } } := by
  have hack : ackokAfter s.eng.ackok ackByte = s.eng.ackok := by simp [ackokAfter]
  rw [rxStep_eq, if_pos hwrite, rxStepWrite, traceByte_eng, hack]
  rfl

/-- The state `s`, at the start of the reply to a write, once the first acknowledgment byte is taken (R133). -/
def ackStarted (s : State) : State :=
  { s with
    eng := { s.eng with rxi := 1 }
    env := { s.env with trace := s.env.trace ++ traced .r [ackByte] } }

/-- Settles O30: the two `RxStep`s, the first at count 0 and the second at count 1. -/
theorem acknowledgmentIsTaken : Obligations.AcknowledgmentIsTaken := by
  intro s hphase hwrite hreal hrxi hempty
  have hqueue : responseQueue s.eng.cmdSim s = [] := by rwa [responseQueue, hreal]
  have hfirst : rxStep ackByte (setResponseQueue [ackByte] s) = setResponseQueue [ackByte] (ackStarted s) := by
    rw [rxStep_ackByte (s := setResponseQueue [ackByte] s) hwrite]
    simp [setResponseQueue, ackStarted, hrxi, ackLen, hreal]
  refine ⟨_, (exec_reply_of_rx hphase hqueue rfl).trans (congrArg _ hfirst), ?_, fun hscript => ?_⟩
  · simp [setResponseQueue, ackStarted, hreal, ackByte]
  · rw [step_setResponseQueue (s := ackStarted s) hphase hscript,
      rxStep_ackByte (s := setResponseQueue [] (ackStarted s)) hwrite]
    simp [setResponseQueue, ackStarted, hreal, hempty, ackLen, ackByte, traced]

/-! ### A read while its reply is taken -/

/-- Byte `i` of a reply is a data byte where `1 ≤ i ≤ len`, and then adds to the value (R24, R124). -/
theorem unpack_concat (taken : List Byte) (b : Byte) (len : Nat) :
    unpack (taken ++ [b]) len = unpack taken len +
      if 1 ≤ taken.length ∧ taken.length ≤ len then b.setWidth 24 <<< (8 * (taken.length - 1)) else 0 := by
  unfold unpack
  cases taken with
  | nil => simp [leValue]
  | cons first data =>
    rcases Nat.lt_or_ge data.length len with hlt | hge
    · have hall : (data ++ [b]).take len = data ++ [b] := List.take_of_length_le (by simpa using hlt)
      have htake : data.take len = data := List.take_of_length_le (Nat.le_of_lt hlt)
      simp [hall, htake, leValue_append, leValue, Nat.succ_le_of_lt hlt]
    · have hno : ¬ data.length + 1 ≤ len := by omega
      simp [List.take_append_of_le_length hge, hno]

/-- The end bytes of a reply are no part of its value (R96, R124). -/
theorem unpack_ends (first last : Byte) (data : List Byte) :
    unpack (first :: (data ++ [last])) data.length = leValue data := by
  simp [unpack]

/-- The state `s`, at the start of the reply to a read, once these reply bytes are taken: `RXI` counts them, `RACC` has
the data bytes among them, and they are traced (R24, R25, R133). -/
def received (s : State) (taken : List Byte) : State :=
  { s with
    eng := { s.eng with
      racc := s.eng.racc + unpack taken s.eng.cmdLen.toNat, rxi := BitVec.ofNat 3 taken.length }
    env := { s.env with trace := s.env.trace ++ traced .r taken } }

theorem received_nil {s : State} (hrxi : s.eng.rxi = 0) : received s [] = s := by
  refine state_eq rfl ?_ ?_
  · cases he : s.eng
    simp_all [received, unpack, leValue]
  · simp [received, traced]

section
variable {s : State} (hread : isReadKind s.eng.cmdOp = true)
include hread

/-- The `RxStep` of a read takes one byte, and completes the read on the last (R133). -/
theorem rxStep_received (q : List Byte) {taken : List Byte} (b : Byte)
    (htaken : taken.length < rdExtra + s.eng.cmdLen.toNat) :
    rxStep b (setResponseQueue q (received s taken)) =
      if taken.length + 1 = rdExtra + s.eng.cmdLen.toNat then
        complete .ok false (s.eng.racc + unpack (taken ++ [b]) s.eng.cmdLen.toNat) true
          (setResponseQueue q (received s (taken ++ [b])))
      else setResponseQueue q (received s (taken ++ [b])) := by
  have hmax : taken.length < 5 := by unfold rdExtra at htaken; omega
  have hrxi : (received s taken).eng.rxi.toNat = taken.length := by
    simp only [received, BitVec.toNat_ofNat]; omega
  have hnext : (received s taken).eng.rxi + 1 = BitVec.ofNat 3 (taken ++ [b]).length := by
    simp [received, BitVec.ofNat_add]
  have hracc : raccAfter (received s taken).eng b =
      s.eng.racc + unpack (taken ++ [b]) s.eng.cmdLen.toNat := by
    rw [raccAfter, hrxi, unpack_concat]
    split <;> simp_all [received, BitVec.add_assoc]
  have hcounted : ({ traceByte .r b (setResponseQueue q (received s taken)) with eng :=
      { (received s taken).eng with
        racc := raccAfter (received s taken).eng b, rxi := (received s taken).eng.rxi + 1 } } : State) =
      setResponseQueue q (received s (taken ++ [b])) := by
    rw [hracc, hnext]
    cases hsim : s.eng.cmdSim <;> simp [setResponseQueue, received, traceByte, traced, hsim]
  have hwrite : isWriteKind (setResponseQueue q (received s taken)).eng.cmdOp = false :=
    isWriteKind_of_isReadKind hread
  rw [rxStep_eq, hwrite, if_neg Bool.false_ne_true]
  rcases rxStepRead_cases b (traceByte .r b (setResponseQueue q (received s taken))) with
    ⟨hlast, hstep⟩ | ⟨hmore, hstep⟩ <;> rw [hstep]
  · rw [traceByte_eng, setResponseQueue_eng, hcounted, hracc]
    exact (if_pos (hrxi ▸ hlast)).symm
  · rw [traceByte_eng, setResponseQueue_eng, hcounted]
    exact (if_neg (hrxi ▸ hmore)).symm

/-- With nothing scheduled the rest of the reply is taken, one byte a step, and completes the read (R133). -/
theorem run_received (hphase : s.eng.phase = .rx) (hscript : s.env.script = []) (q taken : List Byte) (last : Byte)
    (hlen : taken.length + q.length + 1 = rdExtra + s.eng.cmdLen.toNat) :
    run (q.length + 1) (setResponseQueue (q ++ [last]) (received s taken)) =
      .next (complete .ok false (s.eng.racc + unpack (taken ++ q ++ [last]) s.eng.cmdLen.toNat) true
        (setResponseQueue [] (received s (taken ++ q ++ [last])))) := by
  induction q generalizing taken with
  | nil =>
    have hstep := step_setResponseQueue (s := received s taken) hphase hscript last []
    rw [rxStep_received hread [] last (by simp at hlen; omega), if_pos (by simpa using hlen)] at hstep
    simpa [run_one] using hstep
  | cons b q ih =>
    simp only [List.length_cons] at hlen
    have hstep := step_setResponseQueue (s := received s taken) hphase hscript b (q ++ [last])
    rw [rxStep_received hread _ b (by omega), if_neg (by omega)] at hstep
    have hrest := ih (taken ++ [b]) (by simp; omega)
    rw [List.length_cons, run, List.cons_append, hstep]
    simpa using hrest

end

/-- What a read reply of the expected length leaves after its first byte, and at the end (R96, R133). -/
theorem readReply_runs {s : State} {i : Instr} {first last : Byte} {data : List Byte}
    (hi : encode i = .reply (first :: (data ++ [last]))) (hphase : s.eng.phase = .rx)
    (hread : isReadKind s.eng.cmdOp = true) (hlen : data.length = s.eng.cmdLen.toNat) (hrxi : s.eng.rxi = 0)
    (hqueue : responseQueue s.eng.cmdSim s = []) :
    exec i s = .next (setResponseQueue (data ++ [last]) (received s [first])) ∧
      (s.env.script = [] → run (1 + s.eng.cmdLen.toNat) (setResponseQueue (data ++ [last]) (received s [first])) =
        .next (complete .ok false (s.eng.racc + leValue data) true (received s (first :: (data ++ [last]))))) := by
  constructor
  · have hstep := rxStep_received hread (data ++ [last]) (taken := []) first (by simp [rdExtra])
    rw [received_nil hrxi, if_neg (by simp [rdExtra]; omega)] at hstep
    rw [exec_reply_of_rx hphase hqueue hi, hstep]
    rfl
  · intro hscript
    have hrun := run_received hread hphase hscript data [first] last (by simp [rdExtra]; omega)
    have hempty : setResponseQueue [] (received s (first :: (data ++ [last]))) =
        received s (first :: (data ++ [last])) := setResponseQueue_of_eq hqueue
    rw [hlen, Nat.add_comm] at hrun
    simpa [← hlen, unpack_ends, hempty] using hrun

/-- Settles O31: the read completes with the value of the data bytes, since `RACC` starts at 0. -/
theorem readReplyCompletesTheRead : Obligations.ReadReplyCompletesTheRead := by
  intro s i first rest hi hphase hread _ hlen hrxi hracc hqueue
  obtain ⟨data, last, rfl⟩ := (List.eq_nil_or_concat' rest).resolve_left (by rintro rfl; simp at hlen; omega)
  have hdata : data.length = s.eng.cmdLen.toNat := by simp at hlen; omega
  obtain ⟨hexec, hrun⟩ := readReply_runs hi hphase hread hdata hrxi hqueue
  refine ⟨_, hexec, ?_, fun hscript => ?_⟩
  · simp [setResponseQueue, received, hracc, unpack, leValue]
  · have hvalue : unpack (first :: (data ++ [last])) s.eng.cmdLen.toNat = leValue data := by
      rw [← hdata, unpack_ends]
    have hcount : BitVec.ofNat 3 (first :: (data ++ [last])).length = s.eng.cmdLen.setWidth 3 + 2 := by
      simp [hdata, BitVec.ofNat_add, BitVec.add_assoc]
    have hsum : s.eng.racc + leValue data = leValue data := by simp [hracc]
    rw [hrun hscript, received, hcount, hvalue, hsum]
    rfl

/-- Settles O32: what a read reply leaves depends on its data bytes, but for the trace. -/
theorem replyEndBytesDecideNothing : Obligations.ReplyEndBytesDecideNothing := by
  intro s f l f' l' data i j hi hj hphase hread hdata hrxi hqueue hscript
  obtain ⟨hexec, hrun⟩ := readReply_runs hi hphase hread hdata hrxi hqueue
  obtain ⟨hexec', hrun'⟩ := readReply_runs hj hphase hread hdata hrxi hqueue
  refine ⟨_, _, _, _, hexec, hexec', ?_, hrun hscript, hrun' hscript, ?_, rfl, rfl⟩
  · simp [received, unpack]
  · simp [received, complete, ← hdata, unpack_ends]

end Sys2Proof.Machine
end

section
/-! SUPPORT. The datapath functions as arithmetic (R122 to R124); `Accept` of a legal command (R130); one TxStep and
one RxStep, whole (R131, R133); the phase transitions of R138; and the statements on these. -/

namespace Sys2Proof.Machine

/-! ### Pack and the checksum -/

/-- Settles O6: the end bytes fall away, and the data bytes hold the low bytes of the value. -/
theorem unpackInvertsPack : Obligations.UnpackInvertsPack := by
  intro v len first last
  have hdata := unpack_ends first last (pack v len.toNat)
  rw [pack_length] at hdata
  rw [hdata, leValue_pack_toNat v (Nat.le_of_lt_succ len.isLt)]

/-- `Pack` reads the low `n` bytes only (R122). -/
theorem pack_congr {v w : BitVec 32} {n : Nat} (h : v.toNat % 2 ^ (8 * n) = w.toNat % 2 ^ (8 * n)) :
    pack v n = pack w n := by
  induction n generalizing v w with
  | zero => rfl
  | succ n ih =>
    have hpow : 2 ^ (8 * (n + 1)) = 256 * 2 ^ (8 * n) := by rw [Nat.mul_add, Nat.pow_add, Nat.mul_comm]
    rw [hpow, Nat.mod_mul, Nat.mod_mul] at h
    have hlow : v.setWidth 8 = w.setWidth 8 := BitVec.eq_of_toNat_eq (by simp only [BitVec.toNat_setWidth]; omega)
    have hrest : (v >>> 8).toNat % 2 ^ (8 * n) = (w >>> 8).toNat % 2 ^ (8 * n) := by
      simp only [BitVec.toNat_ushiftRight, Nat.shiftRight_eq_div_pow, Nat.reducePow]; omega
    rw [pack, pack, hlow, ih hrest]

/-- Settles O7: the value enters the frame, and so its checksum, through `Pack` alone. -/
theorem writeFrameIgnoresHighBits : Obligations.WriteFrameIgnoresHighBits := by
  intro board addr len v w h
  rw [writeFrame, writeFrame, pack_congr h]

theorem byteSum_toNat (g : List Byte) : (byteSum g).toNat = (g.map (·.toNat)).sum % 256 := by
  induction g with
  | nil => rfl
  | cons b g ih => rw [byteSum, BitVec.toNat_add, ih, List.map_cons, List.sum_cons, Nat.add_mod_mod]

/-- Settles O8: the checksum of a sequence is the byte sum of its tail. -/
theorem checksumIsSumModulo256 : Obligations.ChecksumIsSumModulo256 := fun _ g => byteSum_toNat g

/-! ### Accept -/

/-- In phase IDLE a command that passes the checks is latched and started (R130). -/
theorem hostCommand_of_accepted {op : Op} {c : CmdFields} {s : State} {a : Byte} {l : BitVec 2}
    (hidle : s.eng.phase = .idle) (hcheck : acceptCheck op c s = .ok (a, l)) :
    hostCommand op c s = .next (startCommand op a l c.wdata (latchCommand op c s)) := by
  rw [hostCommand, if_pos hidle, accept, hcheck]

theorem isReservedOp_of_isRegisterOp {op : Op} (h : isRegisterOp op = true) : isReservedOp op = false := by
  cases op <;> simp_all [isReservedOp, isRegisterOp, isWriteKind, isReadKind]

section
variable {s : State} {c : CmdFields} (hidle : s.eng.phase = .idle)
  (hlink : s.env.simMode = true ∨ s.env.linkOk = true)
include hidle hlink

/-- A register command of a legal length on a configured board is started, with the address and length of the command
itself (WRREG, RDREG) or of the catalog entry of its selector (SET, GET) (R130). -/
theorem hostCommand_of_register {op : Op} (hop : isRegisterOp op = true) {a : Byte} {l : BitVec 2}
    (hreg : (if usesCatalog op then catLookup s.cfg c.rsel else some (c.addr, c.len)) = some (a, l))
    (hlen : l ≠ 0) (hboard : c.board.toNat < s.cfg.nboards) :
    hostCommand op c s = .next (startCommand op a l c.wdata (latchCommand op c s)) :=
  hostCommand_of_accepted hidle ((acceptCheck_ok_iff ..).2
    ⟨isReservedOp_of_isRegisterOp hop, hreg, .inr ⟨hlen, hboard⟩, hlink⟩)

/-- FLUSH is started whatever its fields are (R130, R195). -/
theorem hostCommand_flush :
    hostCommand .flush c s = .next (startCommand .flush c.addr c.len c.wdata (latchCommand .flush c s)) :=
  hostCommand_of_accepted hidle ((acceptCheck_ok_iff ..).2 ⟨rfl, rfl, .inl rfl, hlink⟩)

end

/-- Settles O10: both pass the checks with their own address and length. -/
theorem wrregAndRdregAreAccepted : Obligations.WrregAndRdregAreAccepted := by
  intro s c hidle hlen hboard hlink
  exact ⟨hostCommand_of_register (op := .wrreg) hidle hlink rfl rfl hlen hboard,
    hostCommand_of_register (op := .rdreg) hidle hlink rfl rfl hlen hboard⟩

/-- Settles O11: both pass the checks with the address and length of the entry. -/
theorem setAndGetAreAccepted : Obligations.SetAndGetAreAccepted := by
  intro s c a l hidle hlookup hlen hboard hlink
  exact ⟨hostCommand_of_register (op := .set) hidle hlink rfl hlookup hlen hboard,
    hostCommand_of_register (op := .get) hidle hlink rfl hlookup hlen hboard⟩

/-- Settles O12: FLUSH goes to phase DRAIN at once, and the next step is the drain of O39. -/
theorem flushNetEffect : Obligations.FlushNetEffect := by
  intro s c hidle hscript hlink
  refine ⟨_, _, hostCommand_flush hidle hlink, rfl, drainCompletesTheCommand _ rfl hscript, rfl, rfl, ?_⟩
  cases hsim : s.env.simMode <;> simp [hsim]

/-! ### One TxStep and one RxStep -/

/-- What `Complete` leaves of the engine: all but the result registers and PHASE (R137). -/
theorem complete_eng (st : Status) (ack : Bool) (rdata : BitVec 24) (rvalid : Bool) (s : State) :
    (complete st ack rdata rvalid s).eng =
      { s.eng with status := st, ack := ack, rdata := rdata, rvalid := rvalid, phase := .idle } := rfl

theorem complete_env (st : Status) (ack : Bool) (rdata : BitVec 24) (rvalid : Bool) (s : State) :
    (complete st ack rdata rvalid s).env = { s.env with doneCount := s.env.doneCount + 1 } := rfl

/-- Settles O36: the byte is built, and then the frame goes on or ends. -/
theorem txStepSendsOneByte : Obligations.TxStepSendsOneByte := by
  intro s b hphase hscript haccept hbyte
  refine ⟨txAdvance (byteBuilt b s), ?_, ?_⟩
  · rw [step_of_txEnabled hphase hscript ((txEnabled_iff s).2 haccept), txStep_of_txByteAt hbyte]
  · rcases txAdvance_cases (byteBuilt b s) with ⟨hmore, h⟩ | ⟨hlast, hwrite, hsim, h⟩ | ⟨hlast, hwait, h⟩ <;>
      rw [h]
    · rw [emitByte_eng] at hmore
      simp [hmore, cksAfter, shrAfter]
    · rw [emitByte_eng] at hlast hwrite hsim
      have hsim : s.eng.cmdSim = true := hsim
      simp [Nat.not_lt.2 hlast, hwrite, hsim, complete_eng, complete_env, cksAfter, shrAfter]
    · rw [emitByte_eng] at hlast hwait
      have hwait : ¬ (isWriteKind s.eng.cmdOp = true ∧ s.eng.cmdSim = true) := by
        rintro ⟨hwrite, hsim⟩
        simp [hwrite, hsim] at hwait
      simp [Nat.not_lt.2 hlast, hwait, cksAfter, shrAfter]

/-- Settles O37: the byte is taken off its queue, and then it is the `RxStep` of a write or of a read. -/
theorem rxStepTakesTheOldestByte : Obligations.RxStepTakesTheOldestByte := by
  intro s b rest hphase hscript hqueue
  have hstep := step_setResponseQueue hphase hscript b rest
  rw [setResponseQueue_of_eq hqueue] at hstep
  refine ⟨_, hstep, ?_⟩
  rw [rxStep_eq, setResponseQueue_eng]
  cases hwrite : isWriteKind s.eng.cmdOp
  · rw [if_neg Bool.false_ne_true]
    rcases rxStepRead_cases b (traceByte .r b (setResponseQueue rest s)) with ⟨hlast, h⟩ | ⟨hmore, h⟩ <;>
      rw [h, traceByte_eng, setResponseQueue_eng]
    · have hlast : s.eng.rxi.toNat + 1 = 2 + s.eng.cmdLen.toNat := hlast
      simp [hlast, complete_eng, complete_env, setResponseQueue, traceByte, raccAfter]
    · have hmore : ¬ s.eng.rxi.toNat + 1 = 2 + s.eng.cmdLen.toNat := hmore
      simp [hmore, setResponseQueue, traceByte, raccAfter]
  · simp [rxStepWrite, setResponseQueue, traceByte, ackokAfter, ackLen, ackByte, hphase]

/-! ### Phases -/

/-- Where a phase may go (R138). -/
def phaseMoves : Phase → List Phase
  | .idle => [.tx, .drain]
  | .tx => [.rx, .idle]
  | .rx => [.drain, .idle]
  | .drain => [.idle]

/-- The phase stays, or goes where R138 lets it go. -/
abbrev PhaseGoes (p q : Phase) : Prop := q = p ∨ q ∈ phaseMoves p

theorem accept_phase {op : Op} {c : CmdFields} {s : State} (hidle : s.eng.phase = .idle) :
    PhaseGoes s.eng.phase (accept op c s).eng.phase := by
  rcases accept_cases op c s with ⟨st, -, h⟩ | ⟨a, l, -, h⟩ <;> rw [h]
  · exact .inl hidle.symm
  · refine .inr ?_
    by_cases hflush : op = .flush <;> simp [hidle, hflush, phaseMoves]

theorem txStep_phase {s t : State} (hphase : s.eng.phase = .tx) (h : txStep s = .next t) :
    PhaseGoes s.eng.phase t.eng.phase := by
  obtain ⟨b, -, rfl⟩ := txStep_next h
  rcases txAdvance_cases (byteBuilt b s) with ⟨-, h⟩ | ⟨-, -, -, h⟩ | ⟨-, -, h⟩ <;>
    simp [h, hphase, PhaseGoes, phaseMoves]

theorem rxStep_phase (b : Byte) {s : State} (hphase : s.eng.phase = .rx) :
    PhaseGoes s.eng.phase (rxStep b s).eng.phase := by
  rw [rxStep_eq]
  split
  · by_cases hlast : s.eng.rxi.toNat + 1 = ackLen <;> simp [hlast, hphase, PhaseGoes, phaseMoves]
  · rcases rxStepRead_cases b (traceByte .r b s) with ⟨-, h⟩ | ⟨-, h⟩ <;> simp [h, hphase, PhaseGoes, phaseMoves]

theorem rxTimeoutStep_phase {s : State} (hphase : s.eng.phase = .rx) :
    PhaseGoes s.eng.phase (rxTimeoutStep s).eng.phase := by
  unfold rxTimeoutStep; split <;> simp [hphase, PhaseGoes, phaseMoves]

theorem CommandStep.phase_goes {s t : State} (h : CommandStep s t) : PhaseGoes s.eng.phase t.eng.phase := by
  cases h with
  | accept op c idle => exact accept_phase idle
  | tx _ phase _ sent => exact txStep_phase phase sent
  | rx u b taken =>
    obtain ⟨hphase, -, heng, -⟩ := takeByte_eq_some taken
    rw [← heng] at hphase ⊢
    exact rxStep_phase b hphase
  | timeout phase => exact rxTimeoutStep_phase phase
  | drain phase => exact .inr (by simp [drainStep, phase, phaseMoves])

/-- Settles O41: the environment leaves the phase, and each step of a command moves it as the table says. -/
theorem phaseTransitions : Obligations.PhaseTransitions := by
  intro s t hreset hstep
  have hgoes : PhaseGoes s.eng.phase t.eng.phase := by
    obtain ⟨u, ⟨-, heng, -⟩, rfl | hcommand⟩ := step_proceeds hreset hstep
    · exact .inl (by rw [heng])
    · exact heng ▸ hcommand.phase_goes
  cases hphase : s.eng.phase <;> simpa [hphase, PhaseGoes, phaseMoves] using hgoes

end Sys2Proof.Machine
end

section
/-! SUPPORT. Turns that the schedule names are the turns SRFE takes by itself (log 1); a write in real mode up to its
reply, a timeout there and the drain after it; and the statement on a short acknowledgment. -/

namespace Sys2Proof.Machine

/-! ### Scheduled turns -/

section
variable (es : List EnvEvent) (s : State)

theorem accept_setScript (op : Op) (c : CmdFields) :
    accept op c (setScript es s) = setScript es (accept op c s) := by
  have hcheck : acceptCheck op c (setScript es s) = acceptCheck op c s := rfl
  rw [accept, hcheck, accept]
  cases acceptCheck op c s <;> rfl

theorem byteBuilt_setScript (b : Byte) : byteBuilt b (setScript es s) = setScript es (byteBuilt b s) := by
  simp only [byteBuilt, emitByte, apply_ite (setScript es)]; rfl

theorem txAdvance_setScript : txAdvance (setScript es s) = setScript es (txAdvance s) := by
  simp only [txAdvance, apply_ite (setScript es)]; rfl

theorem takeByte_setScript : takeByte (setScript es s) = (takeByte s).map fun x => (x.1, setScript es x.2) := by
  unfold takeByte
  by_cases hphase : s.eng.phase = .rx
  · cases hsim : s.eng.cmdSim
    · cases hq : s.env.rxq <;> simp [hphase, hsim, hq, setScript]
    · cases hq : s.env.simq <;> simp [hphase, hsim, hq, setScript]
  · simp [hphase]

theorem rxStep_setScript (b : Byte) : rxStep b (setScript es s) = setScript es (rxStep b s) := by
  simp only [rxStep, rxStepRead, apply_ite (setScript es)]; rfl

theorem rxTurn_setScript : rxTurn (setScript es s) = setScript es (rxTurn s) := by
  rw [rxTurn, takeByte_setScript, rxTurn]
  cases takeByte s with
  | none => rfl
  | some x => exact rxStep_setScript es x.2 x.1

theorem drainStep_setScript : drainStep (setScript es s) = setScript es (drainStep s) := by
  cases hsim : s.eng.cmdSim <;> simp only [drainStep, setScript_eng, hsim] <;> rfl

end

/-- An idle SRFE takes the command at its port and runs `Accept` on it (R129, R130). -/
theorem srfeTurn_of_command {s : State} {w : CmdWord} (hphase : s.eng.phase = .idle)
    (hport : s.env.cmdPort = some w) :
    srfeTurn s = .next (accept (opOfCode (w.extractLsb' 58 3)) (cmdFieldsOf w) (setCmdPort none s)) := by
  rw [srfeTurn_of_cmdPort hphase hport, runPortWord_cmd]
  exact congrArg _ (if_pos hphase)

/-- SRFE's own turn neither reads nor writes the schedule (log 1). -/
theorem srfeTurn_setScript (es : List EnvEvent) {s t : State} (h : srfeTurn s = .next t) :
    srfeTurn (setScript es s) = .next (setScript es t) := by
  cases hphase : s.eng.phase with
  | idle =>
    have hphase' : (setScript es s).eng.phase = .idle := hphase
    cases hport : s.env.cmdPort with
    | none =>
      rw [srfeTurn_of_no_cmdPort hphase hport] at h
      cases h
      exact srfeTurn_of_no_cmdPort hphase' hport
    | some w =>
      rw [srfeTurn_of_command hphase hport] at h
      cases h
      rw [srfeTurn_of_command hphase' hport, ← accept_setScript]
      rfl
  | tx =>
    have hphase' : (setScript es s).eng.phase = .tx := hphase
    rw [srfeTurn_of_tx hphase] at h
    rw [srfeTurn_of_tx hphase']
    by_cases hen : txEnabled s = true
    · rw [if_pos hen] at h
      obtain ⟨b, hb, rfl⟩ := txStep_next h
      rw [← txAdvance_setScript, ← byteBuilt_setScript]
      exact (if_pos hen).trans (txStep_of_txByteAt hb)
    · rw [if_neg hen] at h
      cases h
      exact if_neg hen
  | rx =>
    have hphase' : (setScript es s).eng.phase = .rx := hphase
    rw [srfeTurn_of_rx hphase] at h
    cases h
    rw [srfeTurn_of_rx hphase', rxTurn_setScript]
  | drain =>
    have hphase' : (setScript es s).eng.phase = .drain := hphase
    rw [srfeTurn_of_drain hphase] at h
    cases h
    rw [srfeTurn_of_drain hphase', drainStep_setScript]

theorem setScript_of_eq {s : State} {es : List EnvEvent} (h : s.env.script = es) : setScript es s = s := by
  subst h; rfl

theorem srfeTurn_script_nil {s t : State} (hscript : s.env.script = []) (h : srfeTurn s = .next t) :
    t.env.script = [] := by
  have hsame := srfeTurn_setScript [] h
  rw [setScript_of_eq hscript, h, Host.Outcome.next.injEq] at hsame
  rw [hsame]
  rfl

/-- Where a turn comes next, SRFE takes its own turn (log 1). -/
theorem step_setScript_turn (es : List EnvEvent) (s : State) :
    step (setScript (.turn :: es) s) = srfeTurn (setScript es s) :=
  step_of_script_cons (s := setScript (.turn :: es) s) rfl

/-- A run with nothing scheduled is the run over a schedule of as many turns (log 1). -/
theorem run_setScript_turns {n : Nat} {s t : State} (hscript : s.env.script = []) (h : run n s = .next t)
    (es : List EnvEvent) : run n (setScript (List.replicate n .turn ++ es) s) = .next (setScript es t) := by
  induction n generalizing s with
  | zero => cases h; rfl
  | succ n ih =>
    rw [run] at h
    split at h
    · rename_i u hu
      rw [step_of_script_nil hscript] at hu
      have hturn : step (setScript (List.replicate (n + 1) .turn ++ es) s) =
          .next (setScript (List.replicate n .turn ++ es) u) :=
        (step_setScript_turn _ s).trans (srfeTurn_setScript _ hu)
      rw [run, hturn]
      exact ih (srfeTurn_script_nil hscript hu) h
    · cases h
    · cases h

/-- Where as many turns come next, SRFE runs as with nothing scheduled, and the rest of the schedule is left. -/
theorem run_turns {n : Nat} {s t : State} {es : List EnvEvent}
    (hscript : s.env.script = List.replicate n .turn ++ es) (h : run n (setScript [] s) = .next t) :
    run n s = .next (setScript es t) := by
  have hrun := run_setScript_turns rfl h es
  rwa [← hscript] at hrun

/-! ### A write in real mode -/

/-- WRREG and SET, where the checks pass, are latched and started as a write (R130, R140, R182). -/
theorem exec_of_writesRegister {s : State} {i : Instr} {c : CmdFields} {a : Byte} {l : BitVec 2}
    (hidle : s.eng.phase = .idle) (hwrites : WritesRegister s.cfg i c a l) (hlen : l ≠ 0)
    (hboard : c.board.toNat < s.cfg.nboards) (hlink : s.env.simMode = true ∨ s.env.linkOk = true) :
    ∃ op, isWriteKind op = true ∧ exec i s = .next (startCommand op a l c.wdata (latchCommand op c s)) := by
  rcases hwrites with ⟨rfl, rfl, rfl⟩ | ⟨rfl, hlookup⟩
  · exact ⟨.wrreg, rfl, hostCommand_of_register (op := .wrreg) hidle hlink rfl rfl hlen hboard⟩
  · exact ⟨.set, rfl, hostCommand_of_register (op := .set) hidle hlink rfl hlookup hlen hboard⟩

/-- The end of a frame whose command waits for a reply (R131). -/
def awaitingReply (s : State) : State :=
  { frameSent s with eng := { (frameSent s).eng with phase := .rx } }

/-- With nothing scheduled the frame of a real write goes out whole, and SRFE waits for the reply (R131, R132). -/
theorem run_real_write_frame {s : State} (hwrite : isWriteKind s.eng.cmdOp = true) (hreal : s.eng.cmdSim = false)
    (hphase : s.eng.phase = .tx) (htxi : s.eng.txi = 0) (hcks : s.eng.cks = 0) (hscript : s.env.script = [])
    (hready : s.env.txReady = true) :
    run (4 + s.eng.cmdLen.toNat) s = .next (awaitingReply s) := by
  have hrun := run_frame (by simp [isRegisterOp, hwrite]) hphase hscript ((txEnabled_iff s).2 (.inr hready))
    (Nat.zero_le (frameBody s.eng).length)
  have hlast : (frameSent s).eng.txi.toNat + 1 = frameLen s.eng.cmdOp s.eng.cmdLen := by
    rw [← frameBody_length]; exact congrArg (· + 1) (sentBytes_body_txi s)
  have hreal' : (frameSent s).eng.cmdSim = false := hreal
  rw [sentBytes_zero htxi hcks, Nat.sub_zero, frameBody_length, frameLen, if_pos hwrite,
    txAdvance_of_last hlast, hreal', Bool.and_false] at hrun
  exact hrun

/-- SRFE takes the bytes of a short acknowledgment, of none or one, and waits for more (R133). -/
theorem run_short_acknowledgment {s : State} (hphase : s.eng.phase = .rx)
    (hwrite : isWriteKind s.eng.cmdOp = true) (hreal : s.eng.cmdSim = false) (hrxi : s.eng.rxi = 0)
    (hscript : s.env.script = []) (hshort : s.env.rxq.length < 2) :
    ∃ t, run s.env.rxq.length s = .next t ∧ t.cfg = s.cfg ∧ t.eng.phase = .rx ∧
      isWriteKind t.eng.cmdOp = true ∧ t.eng.cmdSim = false ∧
      t.env = { s.env with rxq := [], trace := s.env.trace ++ traced .r s.env.rxq } := by
  match hq : s.env.rxq, hshort with
  | [], _ => exact ⟨s, rfl, rfl, hphase, hwrite, hreal, by
      simp only [traced, List.map_nil, List.append_nil]; rw [← hq]⟩
  | [b], _ =>
    have hqueue : responseQueue s.eng.cmdSim s = [b] := by rwa [responseQueue, hreal]
    obtain ⟨t, hstep, hcfg, henv, -, heng⟩ := rxStepTakesTheOldestByte s b [] hphase hscript hqueue
    rw [if_pos hwrite] at heng
    obtain ⟨heng, hdone⟩ := heng
    rw [hdone] at henv
    refine ⟨t, (run_one s).trans hstep, hcfg, ?_, ?_, ?_, ?_⟩
    · rw [heng]; simp [hrxi]
    · rw [heng]; exact hwrite
    · rw [heng]; exact hreal
    · rw [henv]; simp [hreal, traced]

/-- A timeout in phase RX of a real write leads to the drain, and this ends the write unacknowledged (R134, R135). -/
theorem run_timeout_of_write {s : State} (hphase : s.eng.phase = .rx) (hwrite : isWriteKind s.eng.cmdOp = true)
    (hreal : s.eng.cmdSim = false) (hscript : s.env.script = [.rxTimeout, .turn]) :
    ∃ t, run 2 s = .next t ∧ t.cfg = s.cfg ∧ CompletedWith .ok false 0 false t ∧
      t.env = { s.env with
        rxq := [], flushCount := s.env.flushCount + 1, doneCount := s.env.doneCount + 1, script := [] } := by
  have htimeout := timeoutEndsTheReply s .rxTimeout [.turn] hphase hscript (.inl ⟨rfl, hreal⟩)
  rw [if_pos hwrite] at htimeout
  have hdrain := step_of_script_cons (s := { s with
    eng := { s.eng with ackok := false, phase := .drain }, env := { s.env with script := [.turn] } }) rfl
  rw [applyEvent, srfeTurn_of_drain rfl] at hdrain
  refine ⟨_, by rw [run, htimeout]; exact (run_one _).trans hdrain, ?_⟩
  simp [CompletedWith, drainStep, hreal, complete_env, setScript, rxFlush]

/-- A real write at the start of its frame, with a short acknowledgment pending and then a timeout (R131 to R135). -/
theorem run_short_write {s : State} (hwrite : isWriteKind s.eng.cmdOp = true) (hreal : s.eng.cmdSim = false)
    (hphase : s.eng.phase = .tx) (htxi : s.eng.txi = 0) (hcks : s.eng.cks = 0) (hrxi : s.eng.rxi = 0)
    (hready : s.env.txReady = true) (hshort : s.env.rxq.length < 2)
    (hscript : s.env.script = List.replicate (4 + s.eng.cmdLen.toNat + s.env.rxq.length) .turn ++
      [.rxTimeout, .turn]) :
    ∃ t, run (4 + s.eng.cmdLen.toNat + s.env.rxq.length + 2) s = .next t ∧ t.cfg = s.cfg ∧
      CompletedWith .ok false 0 false t ∧
      t.env = { s.env with
        wireOut := s.env.wireOut ++ withChecksum (frameBody s.eng)
        trace := s.env.trace ++ traced .t (withChecksum (frameBody s.eng)) ++ traced .r s.env.rxq
        rxq := [], flushCount := s.env.flushCount + 1, doneCount := s.env.doneCount + 1, script := [] } := by
  have hframe := run_real_write_frame (s := setScript [] s) hwrite hreal hphase htxi hcks rfl hready
  obtain ⟨t, hreply, hcfg, hrx, hwrite', hreal', henv⟩ :=
    run_short_acknowledgment (s := awaitingReply (setScript [] s)) rfl hwrite hreal hrxi rfl hshort
  have hturns := run_turns hscript ((run_add hframe _).trans hreply)
  obtain ⟨u, hend, hcfg', hresult, henv'⟩ :=
    run_timeout_of_write (s := setScript [.rxTimeout, .turn] t) hrx hwrite' hreal' rfl
  refine ⟨u, (run_add hturns 2).trans hend, hcfg'.trans hcfg, hresult, ?_⟩
  rw [henv']
  simp [setScript, henv, awaitingReply, frameSent, hreal]

/-- Settles O20: the command is latched as a write, and what follows is `run_short_write`. -/
theorem shortAcknowledgmentIsNotAcknowledged : Obligations.ShortAcknowledgmentIsNotAcknowledged := by
  intro s i c a l hidle hwrites hlen hboard hreal hlink hready hshort hscript
  obtain ⟨op, hop, hexec⟩ := exec_of_writesRegister hidle hwrites hlen hboard (.inr hlink)
  have hflush : op ≠ .flush := by rintro rfl; cases hop
  have hframe : withChecksum (frameBody (startCommand op a l c.wdata (latchCommand op c s)).eng) =
      writeFrame c.board a l c.wdata := congrArg withChecksum (frameBody_of_write hop)
  obtain ⟨u, hrun⟩ := run_short_write (s := startCommand op a l c.wdata (latchCommand op c s)) hop hreal
    (if_neg hflush) rfl rfl rfl hready hshort hscript
  rw [hframe] at hrun
  exact ⟨_, u, hexec, hrun⟩

end Sys2Proof.Machine
end

section
/-! SUPPORT. What SRFE's steps leave of the transport while a simulated command runs (R142, R162, R196); a write
from the start of its frame to its end, in simulated mode and with a full reply in real mode (R141 to R143); and the
statements on these. -/

namespace Sys2Proof.Machine

/-! ### The transport during a simulated command -/

/-- Nothing was sent, nothing was flushed, and the pending input is the same. -/
abbrev SameTransport (s t : State) : Prop :=
  t.env.wireOut = s.env.wireOut ∧ t.env.flushCount = s.env.flushCount ∧ t.env.rxq = s.env.rxq

theorem accept_sameTransport (op : Op) (c : CmdFields) (s : State) : SameTransport s (accept op c s) := by
  rcases accept_cases op c s with ⟨st, -, h⟩ | ⟨a, l, -, h⟩ <;> simp [SameTransport, h]

theorem txAdvance_sameTransport (s : State) : SameTransport s (txAdvance s) := by
  rcases txAdvance_cases s with ⟨-, h⟩ | ⟨-, -, -, h⟩ | ⟨-, -, h⟩ <;> simp [SameTransport, h]

/-- The frame byte of a simulated command is traced and not sent (R41, R131). -/
theorem txStep_sameTransport {s t : State} (hsim : s.eng.cmdSim = true) (h : txStep s = .next t) :
    SameTransport s t := by
  obtain ⟨b, -, rfl⟩ := txStep_next h
  simpa [SameTransport, hsim] using txAdvance_sameTransport (byteBuilt b s)

/-- `RxStep` counts a byte that is already off its queue (R133). -/
theorem rxStep_sameTransport (b : Byte) (s : State) : SameTransport s (rxStep b s) := by
  rw [rxStep_eq]
  split
  · simp [SameTransport]
  · rcases rxStepRead_cases b (traceByte .r b s) with ⟨-, h⟩ | ⟨-, h⟩ <;> simp [SameTransport, h]

/-- A simulated command takes its response bytes from the canned data (R40). -/
theorem takeByte_sameTransport {s t : State} {b : Byte} (hsim : s.eng.cmdSim = true)
    (h : takeByte s = some (b, t)) : SameTransport s t := by
  obtain ⟨-, -, -, ⟨-, rest, -, henv⟩ | ⟨hreal, -⟩⟩ := takeByte_eq_some h
  · simp [SameTransport, henv]
  · simp [hsim] at hreal

theorem rxTimeoutStep_sameTransport (s : State) : SameTransport s (rxTimeoutStep s) := by
  unfold rxTimeoutStep; split <;> simp [SameTransport]

/-- The drain of a simulated command discards nothing (R135, R196). -/
theorem drainStep_sameTransport {s : State} (hsim : s.eng.cmdSim = true) : SameTransport s (drainStep s) := by
  simp [SameTransport, drainStep, hsim]

/-- With `CMD_SIM` set none of SRFE's steps touches the transport (R142, R162, R196). -/
theorem SrfeStep.sameTransport {s t : State} (h : SrfeStep s t) (hsim : s.eng.cmdSim = true) :
    SameTransport s t := by
  cases h with
  | accept op c _ => exact accept_sameTransport op c s
  | tx _ _ _ sent => exact txStep_sameTransport hsim sent
  | rx u b taken =>
    obtain ⟨hwire, hflush, hrxq⟩ := takeByte_sameTransport hsim taken
    obtain ⟨hwire', hflush', hrxq'⟩ := rxStep_sameTransport b u
    exact ⟨hwire'.trans hwire, hflush'.trans hflush, hrxq'.trans hrxq⟩
  | timeout _ => exact rxTimeoutStep_sameTransport s
  | drain _ => exact drainStep_sameTransport hsim
  | reset => exact ⟨rfl, rfl, rfl⟩

/-- Nothing was sent or flushed, and the pending input lost nothing. -/
abbrev TransportLeftAlone (s t : State) : Prop :=
  t.env.wireOut = s.env.wireOut ∧ t.env.flushCount = s.env.flushCount ∧
    ∃ arrived, t.env.rxq = s.env.rxq ++ arrived

theorem EnvMove.transportLeftAlone {s t : State} (h : EnvMove s t) : TransportLeftAlone s t := by
  obtain ⟨-, -, hwire, -, -, hflush, hrxq, -⟩ := h
  exact ⟨hwire, hflush, hrxq⟩

/-- Settles O43: the environment only adds to the pending input, and SRFE's step leaves all three. -/
theorem simulatedCommandLeavesTheTransportAlone : Obligations.SimulatedCommandLeavesTheTransportAlone := by
  intro s t _ hsim hstep
  rcases step_cases hstep with hmove | ⟨u, hmove, -, rfl | hsrfe⟩
  · exact hmove.transportLeftAlone
  · exact hmove.transportLeftAlone
  · obtain ⟨hwire, hflush, arrived, hrxq⟩ := hmove.transportLeftAlone
    obtain ⟨-, heng, -⟩ := hmove
    obtain ⟨hwire', hflush', hrxq'⟩ := hsrfe.sameTransport (by rwa [heng])
    exact ⟨hwire'.trans hwire, hflush'.trans hflush, arrived, hrxq'.trans hrxq⟩

/-! ### A write in simulated mode -/

/-- With nothing scheduled the frame of a simulated write is traced whole, and its last byte completes the write with
ACK = 1 (R131, R142). -/
theorem run_simulated_write {s : State} (hwrite : isWriteKind s.eng.cmdOp = true) (hsim : s.eng.cmdSim = true)
    (hphase : s.eng.phase = .tx) (htxi : s.eng.txi = 0) (hcks : s.eng.cks = 0) (hscript : s.env.script = []) :
    run (4 + s.eng.cmdLen.toNat) s = .next (complete .ok true 0 false (frameSent s)) := by
  have hrun := run_frame (by simp [isRegisterOp, hwrite]) hphase hscript ((txEnabled_iff s).2 (.inl hsim))
    (Nat.zero_le (frameBody s.eng).length)
  have hlast : (frameSent s).eng.txi.toNat + 1 = frameLen s.eng.cmdOp s.eng.cmdLen := by
    rw [← frameBody_length]; exact congrArg (· + 1) (sentBytes_body_txi s)
  have hwrite' : isWriteKind (frameSent s).eng.cmdOp = true := hwrite
  have hsim' : (frameSent s).eng.cmdSim = true := hsim
  rw [sentBytes_zero htxi hcks, Nat.sub_zero, frameBody_length, frameLen, if_pos hwrite,
    txAdvance_of_last hlast, hwrite', hsim', Bool.and_true, if_pos rfl] at hrun
  exact hrun

/-! ### The start of a write -/

/-- What `Accept` leaves of a write that passes its checks: its frame is next, and nothing outside the engine has
changed (R130). -/
abbrev WriteStarted (s t : State) (c : CmdFields) (a : Byte) (l : BitVec 2) : Prop :=
  t.cfg = s.cfg ∧ t.env = s.env ∧ t.eng.phase = .tx ∧ isWriteKind t.eng.cmdOp = true ∧ t.eng.cmdLen = l ∧
    t.eng.cmdSim = s.env.simMode ∧ t.eng.txi = 0 ∧ t.eng.cks = 0 ∧ t.eng.rxi = 0 ∧ t.eng.ackok = true ∧
    withChecksum (frameBody t.eng) = writeFrame c.board a l c.wdata

theorem exec_writeStarted {s : State} {i : Instr} {c : CmdFields} {a : Byte} {l : BitVec 2}
    (hidle : s.eng.phase = .idle) (hwrites : WritesRegister s.cfg i c a l) (hlen : l ≠ 0)
    (hboard : c.board.toNat < s.cfg.nboards) (hlink : s.env.simMode = true ∨ s.env.linkOk = true) :
    ∃ t, exec i s = .next t ∧ WriteStarted s t c a l := by
  obtain ⟨op, hop, hexec⟩ := exec_of_writesRegister hidle hwrites hlen hboard hlink
  have hflush : op ≠ .flush := by rintro rfl; cases hop
  exact ⟨_, hexec, rfl, rfl, if_neg hflush, hop, rfl, rfl, rfl, rfl, rfl, rfl,
    congrArg withChecksum (frameBody_of_write hop)⟩

/-- Settles O21: the write is started, and its frame is all that follows. -/
theorem simulatedWriteNetEffect : Obligations.SimulatedWriteNetEffect := by
  intro s i c a l hidle hwrites hlen hboard hsimMode hscript
  obtain ⟨t, hexec, hcfg, henv, hphase, hwrite, rfl, hsim, htxi, hcks, -, -, hframe⟩ :=
    exec_writeStarted hidle hwrites hlen hboard (.inl hsimMode)
  have hsim : t.eng.cmdSim = true := hsim.trans hsimMode
  rw [← hframe, ← henv]
  rw [← henv] at hscript
  refine ⟨t, _, hexec, run_simulated_write hwrite hsim hphase htxi hcks hscript, hcfg,
    ⟨rfl, rfl, rfl, rfl, rfl⟩, ?_⟩
  simp [complete_env, frameSent, hsim]

/-! ### A write in real mode with a full reply -/

/-- The state `s`, in a reply to a real write, once the next byte `b` is taken and `rest` is pending (R125, R133). -/
def replyByteTaken (b : Byte) (rest : List Byte) (s : State) : State :=
  { s with
    eng := { s.eng with
      ackok := ackokAfter s.eng.ackok b, rxi := s.eng.rxi + 1
      phase := if s.eng.rxi.toNat + 1 = ackLen then .drain else .rx }
    env := { s.env with rxq := rest, trace := s.env.trace ++ traced .r [b] } }

/-- With nothing scheduled the next byte of the reply to a real write is taken off the pending input (R133). -/
theorem step_of_write_reply {s : State} (hphase : s.eng.phase = .rx) (hwrite : isWriteKind s.eng.cmdOp = true)
    (hreal : s.eng.cmdSim = false) (hscript : s.env.script = []) {b : Byte} {rest : List Byte}
    (hrxq : s.env.rxq = b :: rest) : step s = .next (replyByteTaken b rest s) := by
  have hqueue : responseQueue s.eng.cmdSim s = b :: rest := by rwa [responseQueue, hreal]
  have hstep := step_setResponseQueue hphase hscript b rest
  rw [setResponseQueue_of_eq hqueue, rxStep_eq, setResponseQueue_eng, if_pos hwrite] at hstep
  rw [hstep]
  simp [replyByteTaken, rxStepWrite, traceByte, setResponseQueue, traced, hreal, hphase]

/-- Two response bytes decide the acknowledgment (R125). -/
theorem ackokAfter_two (r0 r1 : Byte) : ackokAfter (ackokAfter true r0) r1 = ackMatch [r0, r1] := by
  simp [ackokAfter, ackMatch]

/-- In phase RX of a real write with two or more bytes pending: two `RxStep`s and the drain (R133, R135, R143). -/
theorem run_full_acknowledgment {s : State} (hphase : s.eng.phase = .rx) (hwrite : isWriteKind s.eng.cmdOp = true)
    (hreal : s.eng.cmdSim = false) (hrxi : s.eng.rxi = 0) (hackok : s.eng.ackok = true)
    (hscript : s.env.script = []) {r0 r1 : Byte} {rest : List Byte} (hrxq : s.env.rxq = r0 :: r1 :: rest) :
    ∃ t, run 3 s = .next t ∧ t.cfg = s.cfg ∧ CompletedWith .ok (ackMatch [r0, r1]) 0 false t ∧
      t.env = { s.env with
        trace := s.env.trace ++ traced .r [r0, r1]
        rxq := [], flushCount := s.env.flushCount + 1, doneCount := s.env.doneCount + 1 } := by
  have hfirst := step_of_write_reply hphase hwrite hreal hscript hrxq
  have hwait : (replyByteTaken r0 (r1 :: rest) s).eng.phase = .rx := by simp [replyByteTaken, hrxi, ackLen]
  have hsecond : step (replyByteTaken r0 (r1 :: rest) s) =
      .next (replyByteTaken r1 rest (replyByteTaken r0 (r1 :: rest) s)) :=
    step_of_write_reply hwait hwrite hreal hscript rfl
  have htwo : run 2 s = .next (replyByteTaken r1 rest (replyByteTaken r0 (r1 :: rest) s)) := by
    rw [run, hfirst]
    exact (run_one _).trans hsecond
  have hboth : (replyByteTaken r1 rest (replyByteTaken r0 (r1 :: rest) s)).eng.phase = .drain := by
    simp [replyByteTaken, hrxi, ackLen]
  have hdrain := drainCompletesTheCommand _ hboth hscript
  have hflush : s.eng.cmdOp ≠ .flush := fun h => by simp [h, isWriteKind] at hwrite
  refine ⟨_, (run_add htwo 1).trans ((run_one _).trans hdrain), rfl, ⟨rfl, rfl, ?_, rfl, rfl⟩, ?_⟩
  · simp [replyByteTaken, hflush, hackok, ackokAfter_two]
  · simp [replyByteTaken, hreal, traced]

/-- Settles O19: the write is started, its frame goes out, and the reply is taken. -/
theorem realWriteNetEffect : Obligations.RealWriteNetEffect := by
  intro s i c a l r0 r1 rest hidle hwrites hlen hboard hsimMode hlink hready hscript hrxq
  obtain ⟨t, hexec, hcfg, henv, hphase, hwrite, rfl, hsim, htxi, hcks, hrxi, hackok, hframe⟩ :=
    exec_writeStarted hidle hwrites hlen hboard (.inr hlink)
  have hreal : t.eng.cmdSim = false := hsim.trans hsimMode
  rw [← henv] at hready hscript hrxq
  have hsent := run_real_write_frame hwrite hreal hphase htxi hcks hscript hready
  obtain ⟨u, hreply, hcfg', hresult, henv'⟩ :=
    run_full_acknowledgment (s := awaitingReply t) rfl hwrite hreal hrxi hackok hscript hrxq
  refine ⟨t, u, hexec, (run_add hsent 3).trans hreply, hcfg'.trans hcfg, hresult, ?_⟩
  rw [henv', ← hframe, ← henv]
  simp [awaitingReply, frameSent, hreal]

end Sys2Proof.Machine
end

section
/-! SUPPORT. A read from the start of its request to its end, in both modes: the request goes out, the bytes that came
are taken one by one, and the last byte or a timeout ends the read (R161 to R165); and the statements on these. -/

namespace Sys2Proof.Machine

/-! ### The start of a read -/

/-- RDREG and GET, where the checks pass, are latched and started as a read (R130, R160, R184). -/
theorem exec_of_readsRegister {s : State} {i : Instr} {c : CmdFields} {a : Byte} {l : BitVec 2}
    (hidle : s.eng.phase = .idle) (hreads : ReadsRegister s.cfg i c a l) (hlen : l ≠ 0)
    (hboard : c.board.toNat < s.cfg.nboards) (hlink : s.env.simMode = true ∨ s.env.linkOk = true) :
    ∃ op, isReadKind op = true ∧ exec i s = .next (startCommand op a l c.wdata (latchCommand op c s)) := by
  rcases hreads with ⟨rfl, rfl, rfl⟩ | ⟨rfl, hlookup⟩
  · exact ⟨.rdreg, rfl, hostCommand_of_register (op := .rdreg) hidle hlink rfl rfl hlen hboard⟩
  · exact ⟨.get, rfl, hostCommand_of_register (op := .get) hidle hlink rfl hlookup hlen hboard⟩

/-- SRFE is about to send the first byte of a read request, and nothing keeps it from that (R37, R130). -/
structure AtReadRequest (s : State) : Prop where
  phase : s.eng.phase = .tx
  read : isReadKind s.eng.cmdOp = true
  txi : s.eng.txi = 0
  cks : s.eng.cks = 0
  rxi : s.eng.rxi = 0
  racc : s.eng.racc = 0
  accepted : s.eng.cmdSim = true ∨ s.env.txReady = true

theorem AtReadRequest.withScript {s : State} (h : AtReadRequest s) (es : List EnvEvent) :
    AtReadRequest (setScript es s) :=
  ⟨h.phase, h.read, h.txi, h.cks, h.rxi, h.racc, h.accepted⟩

/-- A read that passes its checks is latched, its request is next, and nothing outside the engine has changed
(R130, R160, R161, R184). -/
theorem exec_atReadRequest {s : State} {i : Instr} {c : CmdFields} {a : Byte} {l : BitVec 2}
    (hidle : s.eng.phase = .idle) (hreads : ReadsRegister s.cfg i c a l) (hlen : l ≠ 0)
    (hboard : c.board.toNat < s.cfg.nboards)
    (hlink : s.env.simMode = true ∨ (s.env.linkOk = true ∧ s.env.txReady = true)) :
    ∃ t, exec i s = .next t ∧ AtReadRequest t ∧ t.cfg = s.cfg ∧ t.env = s.env ∧ t.eng.cmdLen = l ∧
      t.eng.cmdSim = s.env.simMode ∧ withChecksum (frameBody t.eng) = readReqFrame c.board a l := by
  obtain ⟨op, hop, hexec⟩ := exec_of_readsRegister hidle hreads hlen hboard (hlink.imp_right And.left)
  have hflush : op ≠ .flush := by rintro rfl; cases hop
  exact ⟨_, hexec, ⟨if_neg hflush, hop, rfl, rfl, rfl, rfl, hlink.imp_right And.right⟩, rfl, rfl, rfl, rfl,
    congrArg withChecksum (frameBody_of_read hop)⟩

/-! ### The request and the bytes that come -/

@[simp] theorem awaitingReply_cmdLen (s : State) : (awaitingReply s).eng.cmdLen = s.eng.cmdLen := rfl
@[simp] theorem awaitingReply_racc (s : State) : (awaitingReply s).eng.racc = s.eng.racc := rfl

/-- With nothing scheduled the read request goes out whole, and SRFE waits for the reply (R131, R161, R162). -/
theorem AtReadRequest.run_request {s : State} (h : AtReadRequest s) (hscript : s.env.script = []) :
    run 5 s = .next (awaitingReply s) := by
  have hwrite : isWriteKind s.eng.cmdOp = false := isWriteKind_of_isReadKind h.read
  have hrun := run_frame (by simp [isRegisterOp, h.read]) h.phase hscript ((txEnabled_iff s).2 h.accepted)
    (Nat.zero_le (frameBody s.eng).length)
  have hlast : (frameSent s).eng.txi.toNat + 1 = frameLen s.eng.cmdOp s.eng.cmdLen := by
    rw [← frameBody_length]; exact congrArg (· + 1) (sentBytes_body_txi s)
  have hwrite' : isWriteKind (frameSent s).eng.cmdOp = false := hwrite
  rw [sentBytes_zero h.txi h.cks, Nat.sub_zero, frameBody_length, frameLen, hwrite,
    txAdvance_of_last hlast, hwrite', Bool.false_and] at hrun
  exact hrun

/-- With nothing scheduled SRFE takes the next bytes of a reply that they do not complete, one byte a step, and leaves
what is behind them in the queue (R133). -/
theorem run_received_incomplete {s : State} (hread : isReadKind s.eng.cmdOp = true) (hphase : s.eng.phase = .rx)
    (hscript : s.env.script = []) (q rest taken : List Byte)
    (hshort : taken.length + q.length < rdExtra + s.eng.cmdLen.toNat) :
    run q.length (setResponseQueue (q ++ rest) (received s taken)) =
      .next (setResponseQueue rest (received s (taken ++ q))) := by
  induction q generalizing taken with
  | nil => rw [List.append_nil]; rfl
  | cons b q ih =>
    rw [List.length_cons] at hshort
    have hstep := step_setResponseQueue (s := received s taken) hphase hscript b (q ++ rest)
    rw [rxStep_received hread _ b (by omega), if_neg (by omega)] at hstep
    have hrest := ih (taken ++ [b]) (by simp; omega)
    rw [List.append_assoc, List.singleton_append] at hrest
    rw [List.length_cons, run, List.cons_append, hstep]
    exact hrest

/-- From the start of its request a read sends it and takes the bytes that came, as long as they do not complete the
reply (R161 to R163). -/
theorem AtReadRequest.run_incomplete {s : State} (h : AtReadRequest s) (hscript : s.env.script = [])
    {q rest : List Byte} (hqueue : responseQueue s.eng.cmdSim s = q ++ rest)
    (hshort : q.length < rdExtra + s.eng.cmdLen.toNat) :
    run (5 + q.length) s = .next (setResponseQueue rest (received (awaitingReply s) q)) := by
  have hbytes := run_received_incomplete (s := awaitingReply s) h.read rfl hscript q rest [] (by simpa using hshort)
  rw [received_nil (s := awaitingReply s) h.rxi, setResponseQueue_of_eq (s := awaitingReply s) hqueue] at hbytes
  exact (run_add (h.run_request hscript) q.length).trans hbytes

/-! ### The end of a read -/

/-- A read with its whole reply pending completes on the last byte of it, and what is behind stays (R163, R164). -/
theorem AtReadRequest.run_complete {s : State} (h : AtReadRequest s) (hscript : s.env.script = [])
    {resp rest : List Byte} (hqueue : responseQueue s.eng.cmdSim s = resp ++ rest)
    (hlen : resp.length = rdExtra + s.eng.cmdLen.toNat) :
    run (5 + resp.length) s = .next (complete .ok false (unpack resp s.eng.cmdLen.toNat) true
      (setResponseQueue rest (received (awaitingReply s) resp))) := by
  obtain ⟨q, last, rfl⟩ := (List.eq_nil_or_concat' resp).resolve_left (by rintro rfl; simp [rdExtra] at hlen; omega)
  rw [List.length_append, List.length_singleton] at hlen
  rw [List.append_assoc, List.singleton_append] at hqueue
  have htaken := h.run_incomplete hscript hqueue (by omega)
  have hlast : step (setResponseQueue (last :: rest) (received (awaitingReply s) q)) =
      .next (rxStep last (setResponseQueue rest (received (awaitingReply s) q))) :=
    step_setResponseQueue (s := received (awaitingReply s) q) rfl hscript last rest
  rw [rxStep_received (s := awaitingReply s) h.read rest last (hlen ▸ Nat.lt_succ_self _), awaitingReply_cmdLen,
    if_pos hlen, awaitingReply_racc, h.racc, zero_add] at hlast
  rw [List.length_append, List.length_singleton, ← Nat.add_assoc, run_add htaken, run_one]
  exact hlast

/-- A timeout of the response source in use ends a read that waits for its reply (R134, R165). -/
theorem step_timeout_of_read {s : State} (hphase : s.eng.phase = .rx) (hread : isReadKind s.eng.cmdOp = true) :
    step (setScript [if s.eng.cmdSim then .simTimeout else .rxTimeout] s) =
      .next (raise .errShortRead (setScript [] s)) := by
  have hwrite : isWriteKind s.eng.cmdOp = false := isWriteKind_of_isReadKind hread
  have htimeout := timeoutEndsTheReply
    (setScript [if s.eng.cmdSim then .simTimeout else .rxTimeout] s) _ [] hphase rfl
    (by cases hsim : s.eng.cmdSim <;> simp [hsim])
  rw [setScript_eng, hwrite] at htimeout
  exact htimeout

/-- A read whose reply stays short ends with ERR_SHORT_READ where its response source times out, and the bytes that came
stay taken (R134, R165). -/
theorem AtReadRequest.run_timeout {s : State} (h : AtReadRequest s) {resp : List Byte}
    (hqueue : responseQueue s.eng.cmdSim s = resp) (hshort : resp.length < rdExtra + s.eng.cmdLen.toNat)
    (hscript : s.env.script = List.replicate (5 + resp.length) .turn ++
      [if s.eng.cmdSim then .simTimeout else .rxTimeout]) :
    run (5 + resp.length + 1) s = .next (raise .errShortRead
      (setScript [] (setResponseQueue [] (received (awaitingReply s) resp)))) := by
  have hqueue' : responseQueue (setScript [] s).eng.cmdSim (setScript [] s) = resp ++ [] := by
    rw [List.append_nil]; exact hqueue
  have hturns := run_turns hscript ((h.withScript []).run_incomplete rfl hqueue' hshort)
  rw [run_add hturns, run_one]
  exact step_timeout_of_read (s := setResponseQueue [] (received (awaitingReply s) resp)) rfl h.read

/-- Settles O22: the read is started, its request goes out, and its reply is taken whole. -/
theorem completeReadNetEffect : Obligations.CompleteReadNetEffect := by
  intro s i c a l resp rest hidle hreads hlen hboard hlink hscript hresp hqueue
  obtain ⟨t, hexec, hstart, hcfg, henv, rfl, hsim, hframe⟩ := exec_atReadRequest hidle hreads hlen hboard hlink
  have hrun := hstart.run_complete (henv ▸ hscript) (by rw [hsim, responseQueue, henv]; exact hqueue) hresp
  rw [hresp] at hrun
  refine ⟨t, _, hexec, hrun, hcfg, ⟨rfl, rfl, rfl, rfl, rfl⟩, ?_⟩
  rw [← hframe, ← hsim, ← henv]
  rfl

/-- Settles O23: the read is started, its request goes out, and the timeout follows the bytes that came. -/
theorem shortReadNetEffect : Obligations.ShortReadNetEffect := by
  intro s i c a l resp hidle hreads hlen hboard hlink hshort hqueue hscript
  obtain ⟨t, hexec, hstart, hcfg, henv, rfl, hsim, hframe⟩ := exec_atReadRequest hidle hreads hlen hboard hlink
  rw [← hsim, ← henv] at hscript
  have hrun := hstart.run_timeout (by rw [hsim, responseQueue, henv]; exact hqueue) hshort hscript
  refine ⟨t, _, hexec, hrun, hcfg, ⟨rfl, rfl, rfl, rfl, rfl⟩, ?_⟩
  rw [← hframe, ← hsim, ← henv]
  rfl

end Sys2Proof.Machine
end

section
/-! SUPPORT. SET beside the WRREG of the register it looks up (R183). -/

namespace Sys2Proof.Machine

theorem hostCommand_of_idle {s : State} (hidle : s.eng.phase = .idle) (op : Op) (c : CmdFields) :
    hostCommand op c s = .next (accept op c s) := by
  rw [hostCommand, if_pos hidle]

/-- Check 2 of `Accept` gives SET the register that WRREG names, and the other checks do not tell the two apart
(R130, R182). -/
theorem acceptCheck_wrreg_of_catLookup {s : State} {c d : CmdFields}
    (hlookup : catLookup s.cfg c.rsel = some (d.addr, d.len)) (hboard : d.board = c.board) :
    acceptCheck .wrreg d s = acceptCheck .set c s := by
  simp [acceptCheck, isReservedOp, usesCatalog, hlookup, hboard]

/-- Settles O24: SET and the WRREG of the register it looks up latch twins with the same SHR, and twins stay twins
over any run. -/
theorem setEqualsWrregAfterLookup : Obligations.SetEqualsWrregAfterLookup := by
  intro s c d n hidle hlookup hboard hdata
  have hcheck : acceptCheck .wrreg d s = acceptCheck .set c s := acceptCheck_wrreg_of_catLookup hlookup hboard
  have hkind : SameKind .set .wrreg := by decide
  have htwin : Twin (d.wdata = c.wdata) (accept .set c s) (accept .wrreg d s) :=
    accept_twin hcheck hboard hkind fun _ => hdata
  exact ⟨_, _, hostCommand_of_idle hidle .set c, hostCommand_of_idle hidle .wrreg d,
    (htwin.run_result n).agreeButOp hdata⟩

end Sys2Proof.Machine
end

section
/-! SUPPORT. The end of a command that `Accept` rejects, and the last of its checks: the link (R197, R232, R237). -/

namespace Sys2Proof.Machine

/-- In phase IDLE a command that fails a check ends at once with its status (R130, R236). -/
theorem hostCommand_of_rejected {op : Op} {c : CmdFields} {s : State} {st : Status}
    (hidle : s.eng.phase = .idle) (hcheck : acceptCheck op c s = .error st) :
    hostCommand op c s = .next (raise st (latchCommand op c s)) := by
  rw [hostCommand_of_idle hidle, accept, hcheck]

/-- A rejected command leaves the result registers, one `done` pulse and the early latch, and nothing else
(R137, R236). -/
theorem raise_latchCommand_endedWith (st : Status) (op : Op) (c : CmdFields) (s : State) :
    EndedWith st s (raise st (latchCommand op c s)) :=
  ⟨rfl, rfl, rfl⟩

/-- Check 5 of `Accept` is the last: it decides once checks 1 to 4 pass, and FLUSH skips checks 3 and 4
(R130, R197, R237). -/
theorem acceptCheck_of_missing_link {op : Op} {c : CmdFields} {s : State} {a : Byte} {l : BitVec 2}
    (hop : isReservedOp op = false)
    (hreg : (if usesCatalog op then catLookup s.cfg c.rsel else some (c.addr, c.len)) = some (a, l))
    (hchecks : op = .flush ∨ (l ≠ 0 ∧ c.board.toNat < s.cfg.nboards))
    (hreal : s.env.simMode = false) (hlink : s.env.linkOk = false) :
    acceptCheck op c s = .error .errLink := by
  unfold acceptCheck
  rcases hchecks with rfl | ⟨hlen, hboard⟩
  · simp [hop, hreg, hreal, hlink]
  · simpa [hop, hreg, hreal, hlink, Nat.not_le.2 hboard] using fun _ => hlen

/-- A register command is presented under an opcode for which check 2 of `Accept` finds its register
(R140, R160, R182, R184). -/
theorem exec_eq_hostCommand_of_register {s : State} {i : Instr} {c : CmdFields} {a : Byte} {l : BitVec 2}
    (hregister : WritesRegister s.cfg i c a l ∨ ReadsRegister s.cfg i c a l) :
    ∃ op, isRegisterOp op = true ∧ exec i s = hostCommand op c s ∧
      (if usesCatalog op then catLookup s.cfg c.rsel else some (c.addr, c.len)) = some (a, l) := by
  rcases hregister with (⟨rfl, rfl, rfl⟩ | ⟨rfl, hlookup⟩) | (⟨rfl, rfl, rfl⟩ | ⟨rfl, hlookup⟩)
  · exact ⟨.wrreg, rfl, rfl, rfl⟩
  · exact ⟨.set, rfl, rfl, hlookup⟩
  · exact ⟨.rdreg, rfl, rfl, rfl⟩
  · exact ⟨.get, rfl, rfl, hlookup⟩

/-- Settles O17: FLUSH and a register command whose other checks pass are rejected by the link check. -/
theorem missingLinkEndsRealCommands : Obligations.MissingLinkEndsRealCommands := by
  intro s c i a l hidle hreal hlink hcommand
  rcases hcommand with rfl | ⟨hregister, hlen, hboard⟩
  · have hcheck : acceptCheck .flush c s = .error .errLink :=
      acceptCheck_of_missing_link rfl rfl (.inl rfl) hreal hlink
    exact ⟨_, hostCommand_of_rejected hidle hcheck, raise_latchCommand_endedWith ..⟩
  · obtain ⟨op, hop, hexec, hreg⟩ := exec_eq_hostCommand_of_register hregister
    have hcheck : acceptCheck op c s = .error .errLink :=
      acceptCheck_of_missing_link (isReservedOp_of_isRegisterOp hop) hreg (.inr ⟨hlen, hboard⟩) hreal hlink
    exact ⟨_, hexec.trans (hostCommand_of_rejected hidle hcheck), raise_latchCommand_endedWith ..⟩

end Sys2Proof.Machine
end

section
/-! SUPPORT. The first four checks of `Accept`, each deciding once those before it pass (R231, R233, R235, R234,
R237), and the commands they end. -/

namespace Sys2Proof.Machine

/-! ### Checks 1 to 4 -/

/-- Check 1 looks at the opcode alone (R231). -/
theorem acceptCheck_of_reserved {op : Op} (hop : isReservedOp op = true) (c : CmdFields) (s : State) :
    acceptCheck op c s = .error .errOp :=
  if_pos hop

/-- Check 2 needs a catalog entry, whatever the board, the mode and the link are (R233). -/
theorem acceptCheck_of_unknown_register {op : Op} {c : CmdFields} {s : State} (hop : isReservedOp op = false)
    (hcatalog : usesCatalog op = true) (hlookup : catLookup s.cfg c.rsel = none) :
    acceptCheck op c s = .error .errUnknownReg := by
  simp [acceptCheck, hop, hcatalog, hlookup]

theorem ne_flush_of_isRegisterOp {op : Op} (h : isRegisterOp op = true) : op ≠ .flush := by
  rintro rfl
  cases h

section
variable {op : Op} {c : CmdFields} {s : State} {a : Byte} {l : BitVec 2} (hop : isRegisterOp op = true)
  (hreg : (if usesCatalog op then catLookup s.cfg c.rsel else some (c.addr, c.len)) = some (a, l))
include hop hreg

/-- Check 3 looks at the length that check 2 gives (R235). -/
theorem acceptCheck_of_zero_length (hlen : l = 0) : acceptCheck op c s = .error .errLen := by
  simp [acceptCheck, isReservedOp_of_isRegisterOp hop, ne_flush_of_isRegisterOp hop, hreg, hlen]

/-- Check 4 looks at the board (R234). -/
theorem acceptCheck_of_board_out_of_range (hlen : l ≠ 0) (hboard : s.cfg.nboards ≤ c.board.toNat) :
    acceptCheck op c s = .error .errBoard := by
  simpa [acceptCheck, isReservedOp_of_isRegisterOp hop, ne_flush_of_isRegisterOp hop, hreg, hboard] using hlen

end

/-! ### The commands they end -/

/-- A command that fails a check runs to its end in its `Accept` (R130, R236). -/
theorem exec_endedWith_of_rejected {i : Instr} {op : Op} {c : CmdFields} {s : State} {st : Status}
    (hidle : s.eng.phase = .idle) (hexec : exec i s = hostCommand op c s)
    (hcheck : acceptCheck op c s = .error st) : ∃ t, exec i s = .next t ∧ EndedWith st s t :=
  ⟨_, hexec.trans (hostCommand_of_rejected hidle hcheck), raise_latchCommand_endedWith st op c s⟩

/-- Settles O13: check 1 rejects each reserved opcode. -/
theorem reservedOpcodesEndWithErrOp : Obligations.ReservedOpcodesEndWithErrOp := by
  intro s c hidle i hi
  obtain ⟨op, hop, hexec⟩ : ∃ op, isReservedOp op = true ∧ exec i s = hostCommand op c s := by
    simp only [List.mem_cons, List.not_mem_nil, or_false] at hi
    rcases hi with rfl | rfl | rfl
    · exact ⟨.reserved5, rfl, rfl⟩
    · exact ⟨.reserved6, rfl, rfl⟩
    · exact ⟨.reserved7, rfl, rfl⟩
  exact exec_endedWith_of_rejected hidle hexec (acceptCheck_of_reserved hop c s)

/-- Settles O14: check 2 rejects both. -/
theorem unknownRegisterEndsSetAndGet : Obligations.UnknownRegisterEndsSetAndGet := by
  intro s c hidle hlookup i hi
  simp only [List.mem_cons, List.not_mem_nil, or_false] at hi
  rcases hi with rfl | rfl
  · exact exec_endedWith_of_rejected (op := .set) hidle rfl (acceptCheck_of_unknown_register rfl rfl hlookup)
  · exact exec_endedWith_of_rejected (op := .get) hidle rfl (acceptCheck_of_unknown_register rfl rfl hlookup)

/-- Settles O15: check 2 gives both their own length, and check 3 rejects it. -/
theorem zeroLengthEndsWrregAndRdreg : Obligations.ZeroLengthEndsWrregAndRdreg := by
  intro s c hidle hlen i hi
  simp only [List.mem_cons, List.not_mem_nil, or_false] at hi
  rcases hi with rfl | rfl
  · exact exec_endedWith_of_rejected (op := .wrreg) hidle rfl (acceptCheck_of_zero_length rfl rfl hlen)
  · exact exec_endedWith_of_rejected (op := .rdreg) hidle rfl (acceptCheck_of_zero_length rfl rfl hlen)

/-- Settles O16: a register command that passes checks 1 to 3 is rejected by check 4. -/
theorem boardOutOfRangeEndsRegisterCommands : Obligations.BoardOutOfRangeEndsRegisterCommands := by
  intro s c i a l hidle hregister hlen hboard
  obtain ⟨op, hop, hexec, hreg⟩ := exec_eq_hostCommand_of_register hregister
  exact exec_endedWith_of_rejected hidle hexec (acceptCheck_of_board_out_of_range hop hreg hlen hboard)

end Sys2Proof.Machine
end

section
/-! SUPPORT. Only the schedule drives the pins `sim_mode` and `link_ok`, and every step takes at most the head of the
schedule; so a launch whose schedule drives no pin keeps them over any run (R33, R34, R265). -/

namespace Sys2Proof.Machine

/-! ### What leaves the schedule and the pins -/

/-- The schedule, `sim_mode` and `link_ok` are the same. -/
abbrev SameScheduleAndPins (s t : State) : Prop :=
  t.env.script = s.env.script ∧ t.env.simMode = s.env.simMode ∧ t.env.linkOk = s.env.linkOk

theorem SameInputs.sameScheduleAndPins {s t : State} (h : SameInputs s t) : SameScheduleAndPins s t := by
  obtain ⟨-, -, hscript, hsim, hlink, -⟩ := h
  exact ⟨hscript, hsim, hlink⟩

theorem SameScheduleAndPins.trans {s t u : State} (h : SameScheduleAndPins s t) (k : SameScheduleAndPins t u) :
    SameScheduleAndPins s u := by
  obtain ⟨hscript, hsim, hlink⟩ := h
  obtain ⟨kscript, ksim, klink⟩ := k
  exact ⟨kscript.trans hscript, ksim.trans hsim, klink.trans hlink⟩

theorem offerReply_sameScheduleAndPins (bytes : List Byte) (s : State) :
    SameScheduleAndPins s (offerReply bytes s) := by
  unfold offerReply; split <;> exact ⟨rfl, rfl, rfl⟩

theorem rxTurn_sameScheduleAndPins (s : State) : SameScheduleAndPins s (rxTurn s) := by
  rcases rxTurn_eq_or_srfeStep s with h | h
  · rw [h]; exact ⟨rfl, rfl, rfl⟩
  · exact h.sameInputs.sameScheduleAndPins

/-- SRFE's own turn may take the command off its port, but it leaves the schedule and the pins. -/
theorem srfeTurn_sameScheduleAndPins {s t : State} (h : srfeTurn s = .next t) : SameScheduleAndPins s t := by
  cases hbusy : busy s with
  | true =>
    rcases srfeTurn_of_busy hbusy h with rfl | hsrfe
    · exact ⟨rfl, rfl, rfl⟩
    · exact hsrfe.sameInputs.sameScheduleAndPins
  | false =>
    have hidle : s.eng.phase = .idle := by simpa [busy] using hbusy
    cases hport : s.env.cmdPort with
    | none => rw [srfeTurn_of_no_cmdPort hidle hport] at h; cases h; exact ⟨rfl, rfl, rfl⟩
    | some w =>
      rw [srfeTurn_of_command hidle hport] at h
      cases h
      exact (accept_sameInputs _ _ (setCmdPort none s)).sameScheduleAndPins

theorem runPortWord_frame_sameScheduleAndPins {bytes : List Byte} {s t : State}
    (h : runPortWord (.frame bytes) s = .next t) : SameScheduleAndPins s t := by
  rcases runPortWord_frame bytes with hrun | hrun <;> rw [hrun] at h
  · rcases transferFrame_eq bytes s with ⟨-, -, hsend⟩ | ⟨-, hwait⟩
    · rw [hsend] at h; exact (txStep_sameInputs h).sameScheduleAndPins
    · rw [hwait] at h; cases h; exact ⟨rfl, rfl, rfl⟩
  · cases h; exact ⟨rfl, rfl, rfl⟩

theorem timeout_sameScheduleAndPins (ready : Bool) (s : State) :
    SameScheduleAndPins s (if ready then rxTimeoutStep s else s) := by
  cases ready with
  | true => exact (rxTimeoutStep_sameInputs s).sameScheduleAndPins
  | false => exact ⟨rfl, rfl, rfl⟩

/-- An event that drives neither pin leaves both, and no event writes the schedule (log 1). -/
theorem applyEvent_sameScheduleAndPins {e : EnvEvent} {s t : State} (he : drivesPin e = false)
    (h : applyEvent e s = .next t) : SameScheduleAndPins s t := by
  cases e with
  | turn => exact srfeTurn_sameScheduleAndPins h
  | rxTimeout => cases h; exact timeout_sameScheduleAndPins (rxReady s) s
  | simTimeout => cases h; exact timeout_sameScheduleAndPins (simReady s) s
  | simMode _ | linkOk _ => cases he
  | frame bytes => exact runPortWord_frame_sameScheduleAndPins h
  | reply bytes =>
    rw [applyEvent, runPortWord_reply] at h
    cases h
    exact (offerReply_sameScheduleAndPins bytes s).trans (rxTurn_sameScheduleAndPins _)
  | command _ | withdraw | arrive _ | canned _ | txReady _ | reset => cases h; exact ⟨rfl, rfl, rfl⟩

/-! ### Pins that nothing drives -/

/-- The pins have these values, and nothing scheduled drives either (R265). -/
abbrev PinsHeld (sim link : Bool) (s : State) : Prop :=
  s.env.simMode = sim ∧ s.env.linkOk = link ∧ ∀ e ∈ s.env.script, drivesPin e = false

theorem PinsHeld.of_sameScheduleAndPins {sim link : Bool} {s t : State} (h : PinsHeld sim link s)
    (hsame : SameScheduleAndPins s t) : PinsHeld sim link t := by
  obtain ⟨hscript, hsim, hlink⟩ := hsame
  rwa [PinsHeld, hscript, hsim, hlink]

theorem PinsHeld.after_step {sim link : Bool} {s t : State} (h : PinsHeld sim link s) (hstep : step s = .next t) :
    PinsHeld sim link t := by
  cases hscript : s.env.script with
  | nil =>
    rw [step_of_script_nil hscript] at hstep
    exact h.of_sameScheduleAndPins (srfeTurn_sameScheduleAndPins hstep)
  | cons e rest =>
    obtain ⟨hsim, hlink, hquiet⟩ := h
    rw [hscript, List.forall_mem_cons] at hquiet
    obtain ⟨he, hrest⟩ := hquiet
    rw [step_of_script_cons hscript] at hstep
    have held : PinsHeld sim link (setScript rest s) := ⟨hsim, hlink, hrest⟩
    exact held.of_sameScheduleAndPins (applyEvent_sameScheduleAndPins he hstep)

/-- Settles O48: a clean launch schedules nothing that drives a pin, which every step keeps; and no step changes a
parameter (O50). -/
theorem cleanLaunchHoldsThePins : Obligations.CleanLaunchHoldsThePins := by
  rintro canned s t n ⟨-, -, -, -, hquiet, -⟩ hrun
  have hcfg : t.cfg = s.cfg :=
    run_keeps (P := fun u => u.cfg = s.cfg)
      (fun u v hstep h => (configurationNeverChanges u v hstep).trans h) hrun rfl
  obtain ⟨hsim, hlink, -⟩ : PinsHeld s.env.simMode s.env.linkOk t :=
    run_keeps (fun _ _ hstep h => h.after_step hstep) hrun ⟨rfl, rfl, hquiet⟩
  exact ⟨hsim, hlink, hcfg⟩

end Sys2Proof.Machine
end
